-- ==== Sys2Proof/Word.lean ====
section
/-! DEFINITION. The word types of the block (00_scope.md R5, R8): bit 0 is the least significant bit, every value is unsigned. -/

namespace Sys2Proof

/-- An 8-bit register or field: TICKCNT, a time stamp, EVENTMASK, FLAGMASK, BATT (R5). -/
abbrev Byte := BitVec 8

/-- A 16-bit value: an operation word, a response, COUNTDOWN (R5, R70). -/
abbrev Word := BitVec 16

end Sys2Proof
end

