-- ==== Sys2Proof/Syntax.lean ====
section
/-! DEFINITION. The operations of the block: one constructor per row of spec/opcode_table.json (30_encoding.md R73). -/

namespace Sys2Proof

/-- One operation. The operands are the fields of R72, unsigned and unscaled. -/
inductive Instr where
  /-- RD: read the register that the select names (43_command_port.md R170). -/
  | rd (sel : BitVec 4)
  /-- WRMA: write the mode advertisement (R171). -/
  | wrma (m : BitVec 3)
  /-- SETF: set flags (R172). -/
  | setf (fmask : BitVec 3)
  /-- CLRF: clear flags (R173). -/
  | clrf (fmask : BitVec 3)
  /-- BLINK: request blink events (R174). -/
  | blink (cmask : BitVec 3)
  /-- HDONE: the handler is done (R175). -/
  | hdone
  /-- TICK: one firing of the periodic tick, an input event of TickPin (40_tick_source.md R100). -/
  | tick
  /-- BTN: one falling edge of the button, an input event of ButtonPin (40_tick_source.md R105). -/
  | btn
  deriving DecidableEq, Repr

end Sys2Proof
end

