-- ==== Sys2Proof/Decode.lean ====
section
/-! DEFINITION. The decoder and the encoder of operation words (30_encoding.md R70 to R78; 43_command_port.md R177 to R179). -/

namespace Sys2Proof

/-- Why a word is no operation, by name (R78). -/
inductive Reject where
  /-- OP is reserved, or the word is an input-event word on the command port (R75, R178). -/
  | illegalOp
  /-- OP is legal and a must-be-zero bit is 1 (R76). -/
  | rsvdBits
  deriving DecidableEq, Repr

/-- OP, `word[15:12]` (R70). -/
def opField (w : Word) : BitVec 4 := w.extractLsb' 12 4

/-- SEL, `word[11:8]` (R70, R72). -/
def selField (w : Word) : BitVec 4 := w.extractLsb' 8 4

/-- The three operand bits `word[2:0]` of WRMA, SETF, CLRF and BLINK (R72). -/
def valField (w : Word) : BitVec 3 := w.extractLsb' 0 3

/-- R76: the operation, unless a bit of its must-be-zero set is 1. -/
def checkMbz (w mbz : Word) (i : Instr) : Except Reject Instr :=
  if w &&& mbz = 0 then .ok i else .error .rsvdBits

/-- The decoder of the whole operation alphabet (R71, R73): OP first, then the must-be-zero bits. Total on all words (R78). -/
def decode (w : Word) : Except Reject Instr :=
  match (opField w).toNat with
  | 0x1 => checkMbz w 0x00FF#16 (.rd (selField w))
  | 0x2 => checkMbz w 0x0FF8#16 (.wrma (valField w))
  | 0x3 => checkMbz w 0x0FF8#16 (.setf (valField w))
  | 0x4 => checkMbz w 0x0FF8#16 (.clrf (valField w))
  | 0x5 => checkMbz w 0x0FF8#16 (.blink (valField w))
  | 0x6 => checkMbz w 0x0FFF#16 .hdone
  | 0x8 => checkMbz w 0x0FFF#16 .tick
  | 0x9 => checkMbz w 0x0FFF#16 .btn
  | _ => .error .illegalOp

/-- OP 0x8 or 0x9: the input-event words, which only the pin agents produce (R74). -/
def isEventOp (w : Word) : Bool := opField w = 0x8#4 || opField w = 0x9#4

/-- What the command port reads from a word (R179): an input-event OP is illegal there, whatever the other bits hold (R178). -/
def decodePort (w : Word) : Except Reject Instr :=
  if isEventOp w then .error .illegalOp else decode w

/-- The word of an operation, from the patterns of R73. -/
def encode : Instr → Word
  | .rd sel => 0x1000#16 ||| (sel.setWidth 16 <<< 8)
  | .wrma m => 0x2000#16 ||| m.setWidth 16
  | .setf fmask => 0x3000#16 ||| fmask.setWidth 16
  | .clrf fmask => 0x4000#16 ||| fmask.setWidth 16
  | .blink cmask => 0x5000#16 ||| cmask.setWidth 16
  | .hdone => 0x6000#16
  | .tick => 0x8000#16
  | .btn => 0x9000#16

/-- The operation word that a table row's bits stand for: one word of exactly 16 bits (R71), bits above `nbits` zero. -/
def tableWord (nbits w : Nat) : Word := BitVec.ofNat 16 (w % 2 ^ nbits)

/-- The instruction the decoder reads from a table row's word. -/
def decodeTableWord (nbits w : Nat) : Option Instr :=
  match decode (tableWord nbits w) with
  | .ok i => some i
  | .error _ => none

end Sys2Proof
end

