-- ==== Sys2Proof/Config.lean ====
section
/-! DEFINITION. What an implementation fixes (00_scope.md R6) and the free values. The parameters are no state (10_state.md R20). -/

namespace Sys2Proof

/-- ModeTag (10_state.md R31). The codes 5, 6 and 7 are reserved and no register ever holds them, so they have no constructor. -/
inductive ModeTag where
  /-- NONE, code 0: as an advertisement, no transition requested. -/
  | none
  /-- GAME_A, code 1. -/
  | gameA
  /-- GAME_A_VARIANT, code 2. -/
  | gameAVariant
  /-- GAME_B, code 3. -/
  | gameB
  /-- GAME_C, code 4. -/
  | gameC
  deriving DecidableEq, Repr, Inhabited

/-- The parameters of R6. Every operation that reads one takes the whole record as an argument. -/
structure Config where
  /-- BLINK_DURATION; the source's example value is 8 (D10). -/
  blinkDuration : Byte
  /-- DISPLAY_HOLD; the source's example value is 1000 (D11). -/
  displayHold : Word
  /-- LONG_POLL_MATCH, OPEN (D12). -/
  longPollMatch : Byte
  /-- DEVICE_ID, OPEN (D13). -/
  deviceId : Byte
  /-- BOOT_MODE_ADV, OPEN (D14). -/
  bootModeAdv : ModeTag
  /-- HAS_INIT(GAME_A), OPEN (D15). -/
  hasInitGameA : Bool
  /-- HAS_INIT(GAME_A_VARIANT), OPEN (D15). -/
  hasInitGameAVariant : Bool
  /-- HAS_INIT(GAME_B), OPEN (D15). -/
  hasInitGameB : Bool
  /-- HAS_INIT(GAME_C), OPEN (D15). -/
  hasInitGameC : Bool
  /-- LOWBAT_ENABLE; off by default (D29). -/
  lowbatEnable : Bool
  /-- LOWBAT_THRESHOLD, OPEN (D29). -/
  lowbatThreshold : Byte
  deriving DecidableEq, Repr, Inhabited

/-- HAS_INIT (R6), with HAS_INIT(NONE) = false as D15 fixes it. -/
def Config.hasInit (c : Config) : ModeTag → Bool
  | .none => false
  | .gameA => c.hasInitGameA
  | .gameAVariant => c.hasInitGameAVariant
  | .gameB => c.hasInitGameB
  | .gameC => c.hasInitGameC

/-- The parameters of the modelled block, a FREE VALUE: fixed before reset and never changed (R12), and nothing can prove what
any of them is, so a claim holds for every choice, the defaults of R6 among them. DESIGN CHOICE, log entry 6; safe. -/
opaque config : Config

/-- BATT as the battery-sense input gives it at power-on, a FREE VALUE: any 8-bit pattern (10_state.md R35, R231).
Log entry 7; safe. -/
opaque powerOnBatt : Byte

end Sys2Proof
end

