-- ==== Sys2Proof/Machine/State.lean ====
section
/-! DEFINITION. The state of the block (10_state.md R20 to R41), its state after reset, and the reasons a step can stop. -/

namespace Sys2Proof.Machine

/-- The sequencer state, which plays the role of a program counter (10_state.md R36). The codes 10 to 15 are never reached. -/
inductive Seq where
  /-- Code 0: the idle check and low-power wait (R120). -/
  | idle
  /-- Code 1: slot 1, the mode transition check (R122). -/
  | s1Mode
  /-- Code 2: the on-enter window (R125). -/
  | s1Init
  /-- Code 3: slot 2, tick processing (R127). -/
  | s2Tick
  /-- Code 4: the per-tick window (R128). -/
  | s2Call
  /-- Code 5: slot 3, blink edge handling (R155). -/
  | s3Blink
  /-- Code 6: slot 4, the poll hooks (R129). -/
  | s4Poll
  /-- Code 7: slot 5, the clear of EVENTMASK (R130). -/
  | s5Clear
  /-- Code 8: slot 6, the render (R131). -/
  | s6Render
  /-- Code 9: the terminal low-power state (R135). -/
  | halt
  deriving DecidableEq, Repr

/-- An indicator colour (10_state.md R32): index 0 RED, 1 YELLOW, 2 GREEN. -/
inductive Colour where
  | red
  | yellow
  | green
  deriving DecidableEq, Repr

/-- One value per indicator colour: the arrays TS and LED (00_scope.md R9). -/
structure PerColour (α : Type) where
  red : α
  yellow : α
  green : α
  deriving DecidableEq, Repr

/-- A fault code of 60_exceptions.md R202; the codes 6 and 7 are never raised. -/
inductive FaultCode where
  /-- Code 1. -/
  | illegalOp
  /-- Code 2. -/
  | rsvdBits
  /-- Code 3. -/
  | window
  /-- Code 4. -/
  | badMode
  /-- Code 5. -/
  | badSel
  deriving DecidableEq, Repr

/-- An externally visible action: the event alphabet of 10_state.md R40. Tones and digits carry no values (D37). -/
inductive OutEvent where
  | showId (id : Byte)
  | beep
  | onEnter (m : ModeTag)
  | processTick (m : ModeTag)
  | setIndicator (c : Colour) (on : Bool)
  | shortPoll
  | longPoll
  | renderDigits
  | renderPlain (l0 l1 l2 : Bool)
  deriving DecidableEq, Repr

/-- What the port returns to the agent that issued a command (00_scope.md R9, 60_exceptions.md R204). -/
inductive Response where
  | value (v : Word)
  | fault (code : FaultCode)
  deriving DecidableEq, Repr

/-- The two pin agents (00_scope.md R10). -/
inductive Pin where
  /-- TickPin: the periodic hardware tick. -/
  | tick
  /-- ButtonPin: the edge detector on the button input. -/
  | button
  deriving DecidableEq, Repr

/-- One step of one agent: the choice that 00_scope.md R11 leaves open. -/
inductive Input where
  /-- A pin agent fires (40_tick_source.md). -/
  | pin (p : Pin)
  /-- The command port receives a word, from Handler or Host; the block does not know which (43_command_port.md R180). -/
  | command (w : Word)
  /-- The Sequencer takes its step. -/
  | sequencer
  /-- The Host asserts reset; the battery-sense input reads `batt` (70_reset_and_hazards.md R230, R231). -/
  | reset (batt : Byte)
  deriving DecidableEq, Repr

/-- The registers of the tuple of R20, then three fields of the model's own: what the block has shown to the outside (`out`, R40,
and `resps`) and which agents act next (`inputs`, log entry 1). -/
structure State where
  /-- TICKCNT (R22). -/
  tickcnt : Byte
  /-- COUNTDOWN (R23). -/
  countdown : Word
  /-- EVENTMASK (R24): bits 0 TICK, 1 SHORT_POLL, 2 LONG_POLL, 3 RED_BLINK, 4 YELLOW_BLINK, 5 GREEN_BLINK. -/
  eventmask : Byte
  /-- FLAGMASK (R27): bits 0 DISPLAY_ACTIVE, 1 BEEP_ACTIVE, 2 BUTTON_PRESSED. -/
  flagmask : Byte
  /-- MODE (R29). -/
  mode : ModeTag
  /-- MODE_ADV (R30). -/
  modeAdv : ModeTag
  /-- TS[0..2] (R32). -/
  ts : PerColour Byte
  /-- LED[0..2] (R33): true is on. -/
  led : PerColour Bool
  /-- FAULT (R34), sticky; `none` is the code 0, no fault since reset (R202). -/
  fault : Option FaultCode
  /-- BATT (R35). -/
  batt : Byte
  /-- SEQ (R36). -/
  seq : Seq
  /-- OUT, oldest event first (R40): an observation, which no step reads. -/
  out : List OutEvent
  /-- The responses of the command port, oldest first (R9 `respond`): an observation, which no step reads. Log entry 4. -/
  resps : List Response
  /-- The agents' next steps, the first to be taken first: the model's form of the free choice of R11. Log entry 1. -/
  inputs : List Input
  deriving DecidableEq, Repr

/-- A step that is no step of the block. No instruction and no state of the registers raises one. -/
inductive Fault where
  /-- Raised by `step` when `inputs` names a Sequencer step in a state where the Sequencer has none: IDLE with no work, a handler
  window, HALT (00_scope.md R11). Such a sequence of steps is no run of the block. Safe. Log entry 3. -/
  | sequencerHasNoStep
  deriving DecidableEq, Repr

/-- A step the model gives no meaning. -/
inductive Refusal where
  /-- Raised by `exec` for an instruction that has no meaning yet; every instruction of the table has one, so nothing raises it.
  Safe. -/
  | notModelled (mnemonic : String)
  deriving DecidableEq, Repr

/-- The low-battery check of 70_reset_and_hazards.md R235 decides where the sequencer starts; the comparison is strict. -/
def State.bootSeq (c : Config) (batt : Byte) : Seq :=
  if c.lowbatEnable = true ∧ batt.toNat < c.lowbatThreshold.toNat then .halt else .idle

/-- The registers at their reset values (10_state.md R38, 70_reset_and_hazards.md R231). OUT is kept (R231), and so are the
response trace and the steps still to come (log entry 5). -/
def State.afterReset (c : Config) (batt : Byte) (out : List OutEvent) (resps : List Response) (inputs : List Input) : State where
  tickcnt := 0
  countdown := 0
  eventmask := 0
  flagmask := 0
  mode := .none
  modeAdv := c.bootModeAdv
  ts := ⟨0, 0, 0⟩
  led := ⟨false, false, false⟩
  fault := none
  batt := batt
  seq := State.bootSeq c batt
  out := out
  resps := resps
  inputs := inputs

/-- The block right after power-on: reset with a battery value the model leaves free, nothing shown yet, nothing scheduled. -/
def State.reset : State := State.afterReset config powerOnBatt [] [] []

end Sys2Proof.Machine
end

