-- ==== Sys2Proof/Machine/Flags.lean ====
section
/-! DEFINITION. The bits of EVENTMASK and FLAGMASK, and the two ways a step changes a mask: an OR, and an AND-NOT
(10_state.md R24 to R28). -/

namespace Sys2Proof.Machine

/-- EVENTMASK bit 0, TICK (R24). -/
def evTick : Byte := 0b00000001#8
/-- EVENTMASK bit 1, SHORT_POLL (R24). -/
def evShortPoll : Byte := 0b00000010#8
/-- EVENTMASK bit 2, LONG_POLL (R24). -/
def evLongPoll : Byte := 0b00000100#8
/-- FLAGMASK bit 0, DISPLAY_ACTIVE (R27). -/
def flDisplayActive : Byte := 0b00000001#8
/-- FLAGMASK bit 2, BUTTON_PRESSED (R27). -/
def flButtonPressed : Byte := 0b00000100#8

/-- Set every bit of `bits` in a mask; a bit already set stays set (R25). -/
def setBits (mask bits : Byte) : Byte := mask ||| bits

/-- Clear every bit of `bits` in a mask (R173). -/
def clearBits (mask bits : Byte) : Byte := mask &&& ~~~bits

/-- Whether bit `i` of a mask is 1. -/
def hasBit (mask : Byte) (i : Nat) : Bool := mask.getLsbD i

/-- The array index of a colour (10_state.md R32). -/
def Colour.index : Colour → Nat
  | .red => 0
  | .yellow => 1
  | .green => 2

/-- Whether colour `c` is requested: EVENTMASK[3 + c] (R24, R155). -/
def blinkRequested (eventmask : Byte) (c : Colour) : Bool := hasBit eventmask (3 + c.index)

/-- SHORT_POLL's test on the incremented counter: `TICKCNT[3:0] = 0` (R100 (d)). -/
def shortPollDue (t : Byte) : Bool := t.extractLsb' 0 4 = 0#4

/-- The EVENTMASK bits a TICK sets, given the incremented counter (R100 (c), (d), (e)). -/
def tickBits (c : Config) (t : Byte) : Byte :=
  evTick ||| (if shortPollDue t then evShortPoll else 0#8) ||| (if t = c.longPollMatch then evLongPoll else 0#8)

end Sys2Proof.Machine
end

