-- ==== Sys2Proof/Machine/Operands.lean ====
section
/-! DEFINITION. The operand forms: register codes, the masks of the commands, the colour arrays and the read-select map
(30_encoding.md R72; 20_memory.md R57). -/

namespace Sys2Proof.Machine

/-- The 3-bit code of a ModeTag (10_state.md R31). -/
def modeCode : ModeTag → BitVec 3
  | .none => 0#3
  | .gameA => 1#3
  | .gameAVariant => 2#3
  | .gameB => 3#3
  | .gameC => 4#3

/-- The ModeTag of a code; the codes 5, 6 and 7 are reserved (R31, R77). -/
def modeOfCode (m : BitVec 3) : Option ModeTag :=
  match m.toNat with
  | 0 => some .none
  | 1 => some .gameA
  | 2 => some .gameAVariant
  | 3 => some .gameB
  | 4 => some .gameC
  | _ => none

/-- The 4-bit code of a sequencer state (10_state.md R36). -/
def seqCode : Seq → BitVec 4
  | .idle => 0#4
  | .s1Mode => 1#4
  | .s1Init => 2#4
  | .s2Tick => 3#4
  | .s2Call => 4#4
  | .s3Blink => 5#4
  | .s4Poll => 6#4
  | .s5Clear => 7#4
  | .s6Render => 8#4
  | .halt => 9#4

/-- The 3-bit code of a fault (60_exceptions.md R202). -/
def faultCodeBits : FaultCode → BitVec 3
  | .illegalOp => 1#3
  | .rsvdBits => 2#3
  | .window => 3#3
  | .badMode => 4#3
  | .badSel => 5#3

/-- What the FAULT register reads as: 0 while no fault has occurred (R34, R202). -/
def faultBits : Option FaultCode → BitVec 3
  | none => 0#3
  | some code => faultCodeBits code

/-- SETF's and CLRF's mask: `fmask` at the FLAGMASK positions, unchanged (R72). -/
def flagOperand (fmask : BitVec 3) : Byte := fmask.setWidth 8

/-- BLINK's mask: `cmask << 3`, so that cmask bit c is EVENTMASK bit 3 + c (R72). -/
def colourOperand (cmask : BitVec 3) : Byte := cmask.setWidth 8 <<< 3

/-- `TS[c]`, `LED[c]` (00_scope.md R9). -/
def PerColour.get {α : Type} (p : PerColour α) : Colour → α
  | .red => p.red
  | .yellow => p.yellow
  | .green => p.green

/-- The array that holds `f c` for each colour c. -/
def PerColour.ofFn {α : Type} (f : Colour → α) : PerColour α := ⟨f .red, f .yellow, f .green⟩

/-- LED as RD packs it: `LED[2], LED[1], LED[0]` in bits 2, 1 and 0 (10_state.md R33). -/
def ledBits (led : PerColour Bool) : BitVec 3 :=
  BitVec.ofBool led.green ++ BitVec.ofBool led.yellow ++ BitVec.ofBool led.red

/-- The read-select map (R57): the selected register zero-extended to 16 bits; `none` for the reserved selects 14 and 15. -/
def readSel (c : Config) (sel : BitVec 4) (s : State) : Option Word :=
  match sel.toNat with
  | 0 => some (s.tickcnt.setWidth 16)
  | 1 => some (s.eventmask.setWidth 16)
  | 2 => some (s.flagmask.setWidth 16)
  | 3 => some s.countdown
  | 4 => some ((modeCode s.mode).setWidth 16)
  | 5 => some ((modeCode s.modeAdv).setWidth 16)
  | 6 => some (s.ts.red.setWidth 16)
  | 7 => some (s.ts.yellow.setWidth 16)
  | 8 => some (s.ts.green.setWidth 16)
  | 9 => some ((ledBits s.led).setWidth 16)
  | 10 => some ((seqCode s.seq).setWidth 16)
  | 11 => some ((faultBits s.fault).setWidth 16)
  | 12 => some (s.batt.setWidth 16)
  | 13 => some (c.deviceId.setWidth 16)
  | _ => none

end Sys2Proof.Machine
end

