-- ==== Sys2Proof/Machine/Ops.lean ====
section
/-! DEFINITION. The shared operations of the rules' pseudocode (00_scope.md R9): emit, respond, raise Fault, the move of SEQ, the
window gate of the mutating commands, and reset. The block has no memory (20_memory.md R50), no trap entry and no return from a
fault (60_exceptions.md R200, R205): `raiseFault` is the whole of taking one. -/

namespace Sys2Proof.Machine

/-- `emit`: append events to OUT, in order (R9, R40). -/
def emit (es : List OutEvent) (s : State) : State := { s with out := s.out ++ es }

/-- `respond v`: the value returned to the agent that issued the command (R9). -/
def respond (v : Word) (s : State) : State := { s with resps := s.resps ++ [.value v] }

/-- `raise Fault(code)` with its response (60_exceptions.md R201, R204): FAULT keeps the first code; the response carries this
command's own code; nothing else changes. -/
def raiseFault (code : FaultCode) (s : State) : State :=
  { s with fault := some (s.fault.getD code), resps := s.resps ++ [.fault code] }

/-- `seq <- S` (R9). -/
def gotoSeq (q : Seq) (s : State) : State := { s with seq := q }

/-- Whether a sequencer state is a handler window: S1_INIT or S2_CALL (43_command_port.md R176). -/
def isWindow : Seq → Bool
  | .s1Init => true
  | .s2Call => true
  | .idle => false
  | .s1Mode => false
  | .s2Tick => false
  | .s3Blink => false
  | .s4Poll => false
  | .s5Clear => false
  | .s6Render => false
  | .halt => false

/-- The window check of R179: a mutating command runs in a handler window, and raises WINDOW anywhere else. -/
def whenInWindow (run : State → State) (s : State) : State :=
  if isWindow s.seq then run s else raiseFault .window s

/-- Reset, one atomic step (70_reset_and_hazards.md R230, R231): `batt` is what the battery-sense input gives. -/
def assertReset (c : Config) (batt : Byte) (s : State) : State :=
  State.afterReset c batt s.out s.resps s.inputs

end Sys2Proof.Machine
end

