-- ==== Sys2Proof/Machine/Commands.lean ====
section
/-! DEFINITION. The commands of the port after the decode checks of OP and the must-be-zero bits (43_command_port.md R170 to R176,
R179): the window check, then the rule of the command with its own value check. -/

namespace Sys2Proof.Machine

/-- RD (R170): allowed in every sequencer state; no side effect; BAD_SEL on a reserved select. -/
def readCommand (c : Config) (sel : BitVec 4) (s : State) : State :=
  match readSel c sel s with
  | some v => respond v s
  | none => raiseFault .badSel s

/-- WRMA's rule (R171): BAD_MODE on a reserved code. -/
def advertise (m : BitVec 3) (s : State) : State :=
  match modeOfCode m with
  | some tag => respond 0 { s with modeAdv := tag }
  | none => raiseFault .badMode s

/-- SETF's rule (R172). -/
def setFlags (fmask : BitVec 3) (s : State) : State :=
  respond 0 { s with flagmask := setBits s.flagmask (flagOperand fmask) }

/-- CLRF's rule (R173). -/
def clearFlags (fmask : BitVec 3) (s : State) : State :=
  respond 0 { s with flagmask := clearBits s.flagmask (flagOperand fmask) }

/-- BLINK's rule (R174). -/
def requestBlink (cmask : BitVec 3) (s : State) : State :=
  respond 0 { s with eventmask := setBits s.eventmask (colourOperand cmask) }

/-- Where HDONE leaves a sequencer state (R175): S1_INIT goes on to S2_TICK, S2_CALL to S3_BLINK, any other stays. -/
def afterWindow : Seq → Seq
  | .s1Init => .s2Tick
  | .s2Call => .s3Blink
  | .idle => .idle
  | .s1Mode => .s1Mode
  | .s2Tick => .s2Tick
  | .s3Blink => .s3Blink
  | .s4Poll => .s4Poll
  | .s5Clear => .s5Clear
  | .s6Render => .s6Render
  | .halt => .halt

/-- HDONE's rule (R175). -/
def closeWindow (s : State) : State := respond 0 (gotoSeq (afterWindow s.seq) s)

/-- The meaning of RD (R170). -/
def execRd (sel : BitVec 4) (s : State) : Host.Outcome State Fault Refusal := .next (readCommand config sel s)

/-- The meaning of WRMA (R171, R176). -/
def execWrma (m : BitVec 3) (s : State) : Host.Outcome State Fault Refusal := .next (whenInWindow (advertise m) s)

/-- The meaning of SETF (R172, R176). -/
def execSetf (fmask : BitVec 3) (s : State) : Host.Outcome State Fault Refusal := .next (whenInWindow (setFlags fmask) s)

/-- The meaning of CLRF (R173, R176). -/
def execClrf (fmask : BitVec 3) (s : State) : Host.Outcome State Fault Refusal := .next (whenInWindow (clearFlags fmask) s)

/-- The meaning of BLINK (R174, R176). -/
def execBlink (cmask : BitVec 3) (s : State) : Host.Outcome State Fault Refusal := .next (whenInWindow (requestBlink cmask) s)

/-- The meaning of HDONE (R175, R176). -/
def execHdone (s : State) : Host.Outcome State Fault Refusal := .next (whenInWindow closeWindow s)

end Sys2Proof.Machine
end

