-- ==== Sys2Proof/Machine/TickSource.lean ====
section
/-! DEFINITION. The two interrupt-context producers, TICK and BTN (40_tick_source.md). -/

namespace Sys2Proof.Machine

/-- One tick of COUNTDOWN (R102): down by one while it is greater than 1, unsigned. -/
def countdownTick (n : Word) : Word := if 1 < n.toNat then n - 1 else n

/-- TICK (R100): increment first, then the poll tests on the incremented counter (D26); ignored in HALT (R107). -/
def tick (c : Config) (s : State) : State :=
  if s.seq = .halt then s
  else
    { s with
      tickcnt := s.tickcnt + 1
      countdown := countdownTick s.countdown
      eventmask := setBits s.eventmask (tickBits c (s.tickcnt + 1)) }

/-- BTN (R105): two flags and the reload of COUNTDOWN; ignored in HALT (R107). -/
def btn (c : Config) (s : State) : State :=
  if s.seq = .halt then s
  else
    { s with
      flagmask := setBits s.flagmask (flDisplayActive ||| flButtonPressed)
      countdown := c.displayHold }

/-- The meaning of TICK (R100). TICK cannot fault. -/
def execTick (s : State) : Host.Outcome State Fault Refusal := .next (tick config s)

/-- The meaning of BTN (R105). BTN cannot fault. -/
def execBtn (s : State) : Host.Outcome State Fault Refusal := .next (btn config s)

end Sys2Proof.Machine
end

