-- ==== Sys2Proof/Machine/Dispatch.lean ====
section
/-! DEFINITION. One arm per operation of spec/opcode_table.json. -/

namespace Sys2Proof.Machine

def exec (i : Instr) (s : State) : Host.Outcome State Fault Refusal :=
  match i with
  | .rd sel => Sys2Proof.Machine.execRd sel s
  | .wrma m => Sys2Proof.Machine.execWrma m s
  | .setf fmask => Sys2Proof.Machine.execSetf fmask s
  | .clrf fmask => Sys2Proof.Machine.execClrf fmask s
  | .blink cmask => Sys2Proof.Machine.execBlink cmask s
  | .hdone => Sys2Proof.Machine.execHdone s
  | .tick => Sys2Proof.Machine.execTick s
  | .btn => Sys2Proof.Machine.execBtn s

end Sys2Proof.Machine
end

