-- ==== Sys2Proof/Machine/Port.lean ====
section
/-! DEFINITION. How an operation word reaches its meaning: the input-event words of the pins and the words of the command port
(30_encoding.md R74; 43_command_port.md R179, R180). -/

namespace Sys2Proof.Machine

/-- The fault a rejected word raises (43_command_port.md R179). -/
def rejectCode : Reject → FaultCode
  | .illegalOp => .illegalOp
  | .rsvdBits => .rsvdBits

/-- Run what the decoder answered: the operation's meaning, or the fault of a rejected word. -/
def runDecoded (d : Except Reject Instr) (s : State) : Host.Outcome State Fault Refusal :=
  match d with
  | .ok i => exec i s
  | .error r => .next (raiseFault (rejectCode r) s)

/-- The input-event word a pin agent produces (R74): 0x8000 from TickPin, 0x9000 from ButtonPin. -/
def pinWord : Pin → Word
  | .tick => 0x8000#16
  | .button => 0x9000#16

/-- A pin agent fires. -/
def runPin (p : Pin) (s : State) : Host.Outcome State Fault Refusal := runDecoded (decode (pinWord p)) s

/-- The command port receives a word (R179). -/
def runCommand (w : Word) (s : State) : Host.Outcome State Fault Refusal := runDecoded (decodePort w) s

/-- The agent's step that performs the operation word `w`: an input-event word comes from its pin, any other through the port. -/
def inputOfWord (w : Word) : Input :=
  if w = pinWord .tick then .pin .tick else if w = pinWord .button then .pin .button else .command w

end Sys2Proof.Machine
end

