-- ==== Sys2Proof/Machine/Blink.lean ====
section
/-! DEFINITION. The modular distance, the tick-to-deadline comparator and slot 3, S3_BLINK (42_blink_timer.md). -/

namespace Sys2Proof.Machine

/-- The forward delta: the increments from `s` to `t` (R150). -/
def fwd (t s : Byte) : Byte := t - s

/-- The symmetric distance of two tick values, a natural in 0..128 (R150). There is no other comparison of tick values (R152). -/
def tickDist (t s : Byte) : Nat :=
  if (fwd t s).toNat ≤ 128 then (fwd t s).toNat else 256 - (fwd t s).toNat

/-- The comparator (R153): strictly more than BLINK_DURATION apart. -/
def expired (c : Config) (t s : Byte) : Bool := decide (c.blinkDuration.toNat < tickDist t s)

/-- The stamp of colour `k` after the latch part of S3_BLINK: the current tick if requested (R155). -/
def stampAfter (s : State) (k : Colour) : Byte :=
  if blinkRequested s.eventmask k then s.tickcnt else s.ts.get k

/-- The latch of colour `k` after S3_BLINK: on if requested or already on, unless its stamp has expired (R155, R156). -/
def latchAfter (c : Config) (s : State) (k : Colour) : Bool :=
  (blinkRequested s.eventmask k || s.led.get k) && !expired c s.tickcnt (stampAfter s k)

/-- S3_BLINK (R155): latch on event, turn off on timeout, one SetIndicator per colour in colour order. -/
def blinkSlot (c : Config) (s : State) : State :=
  gotoSeq .s4Poll
    (emit
      [.setIndicator .red (latchAfter c s .red), .setIndicator .yellow (latchAfter c s .yellow),
        .setIndicator .green (latchAfter c s .green)]
      { s with ts := PerColour.ofFn (stampAfter s), led := PerColour.ofFn (latchAfter c s) })

end Sys2Proof.Machine
end

