-- ==== Sys2Proof/Machine/Sequencer.lean ====
section
/-! DEFINITION. The pass sequencer: one atomic step per slot, in the fixed order of 41_dispatch_sequencer.md R132. No sequencer
step can fault. -/

namespace Sys2Proof.Machine

/-- Whether work is pending at the idle check: a level condition on both whole registers (R120, D25). -/
def workPending (s : State) : Bool := s.eventmask ≠ 0 || s.flagmask ≠ 0

/-- The guard of a mode transition (R122, R123). -/
def transitionDue (s : State) : Bool := s.modeAdv ≠ .none && s.modeAdv ≠ s.mode

/-- S1_MODE (R122): commit a due advertisement and announce it; open the on-enter window if the entered mode declares one. -/
def modeSlot (c : Config) (s : State) : State :=
  if transitionDue s then
    emit ([.showId c.deviceId, .beep] ++ (if c.hasInit s.modeAdv then [.onEnter s.modeAdv] else []))
      { s with
        mode := s.modeAdv
        modeAdv := .none
        flagmask := setBits s.flagmask flDisplayActive
        countdown := c.displayHold
        seq := if c.hasInit s.modeAdv then .s1Init else .s2Tick }
  else gotoSeq .s2Tick s

/-- S2_TICK (R127): dispatch to the mode's per-tick handler; NONE owns no entry point (D22). -/
def tickSlot (s : State) : State :=
  if hasBit s.eventmask 0 && s.mode ≠ .none then gotoSeq .s2Call (emit [.processTick s.mode] s)
  else gotoSeq .s3Blink s

/-- S4_POLL (R129): the two hooks, as events only (D23). -/
def pollSlot (s : State) : State :=
  gotoSeq .s5Clear
    (emit ((if hasBit s.eventmask 1 then [.shortPoll] else []) ++ (if hasBit s.eventmask 2 then [.longPoll] else [])) s)

/-- S5_CLEAR (R130): the whole of EVENTMASK, consumed or not. -/
def clearSlot (s : State) : State := gotoSeq .s6Render { s with eventmask := 0 }

/-- S6_RENDER (R131): digits while DISPLAY_ACTIVE is set, else the indicator state; then back to the idle check. -/
def renderSlot (s : State) : State :=
  gotoSeq .idle
    (emit (if hasBit s.flagmask 0 then [.renderDigits] else [.renderPlain s.led.red s.led.yellow s.led.green]) s)

/-- The Sequencer's step, `none` where it has none: IDLE with no work, the two handler windows, HALT (00_scope.md R11; R120, R125,
R128, R135). -/
def sequencerStep (c : Config) (s : State) : Option State :=
  match s.seq with
  | .idle => if workPending s then some (gotoSeq .s1Mode s) else none
  | .s1Mode => some (modeSlot c s)
  | .s1Init => none
  | .s2Tick => some (tickSlot s)
  | .s2Call => none
  | .s3Blink => some (blinkSlot c s)
  | .s4Poll => some (pollSlot s)
  | .s5Clear => some (clearSlot s)
  | .s6Render => some (renderSlot s)
  | .halt => none

/-- A Sequencer step that `inputs` names: where there is none, the sequence of steps is no run of the block (R11). -/
def takeSequencerStep (c : Config) (s : State) : Host.Outcome State Fault Refusal :=
  match sequencerStep c s with
  | some s' => .next s'
  | none => .fault .sequencerHasNoStep

/-- What the block does when no agent outside it acts: the Sequencer's step if it has one, else the wait, in which every register
keeps its value (60_exceptions.md R215). DESIGN CHOICE, log entry 2. -/
def runAlone (c : Config) (s : State) : State :=
  match sequencerStep c s with
  | some s' => s'
  | none => s

end Sys2Proof.Machine
end

