-- ==== Sys2Proof/Machine/Step.lean ====
section
/-! DEFINITION. The step relation of 00_scope.md R11 as one deterministic function: `inputs` says which agent acts next. -/

namespace Sys2Proof.Machine

/-- One transition of the block (R11, 20_memory.md R56). With no step scheduled, the block runs alone (log entry 2). -/
def step (s : State) : Host.Outcome State Fault Refusal :=
  match s.inputs with
  | [] => .next (runAlone config s)
  | .pin p :: rest => runPin p { s with inputs := rest }
  | .command w :: rest => runCommand w { s with inputs := rest }
  | .sequencer :: rest => takeSequencerStep config { s with inputs := rest }
  | .reset batt :: rest => .next (assertReset config batt { s with inputs := rest })

/-- `s` with one operation word as the very next step: from its pin for the words 0x8000 and 0x9000, through the command port for
any other (30_encoding.md R74). Log entry 8. -/
def State.withFetchWord (s : State) (nbits w : Nat) : State :=
  { s with inputs := inputOfWord (tableWord nbits w) :: s.inputs }

end Sys2Proof.Machine
end

