-- ==== Sys2Proof/Machine/Assembly.lean ====
section
/-! DEFINITION. The assembly syntax of 30_encoding.md R79: one line of text to one operation, or to the Sequencer's step that a line
`@<STATE>` of a test program stands for. The block itself reads words only. -/

namespace Sys2Proof.Machine

/-- What one line says (R79). -/
inductive Line where
  /-- Blanks or a comment alone. -/
  | empty
  /-- An operation. -/
  | op (i : Instr)
  /-- `@<STATE>`: the Sequencer takes its step from that state. It has no encoding. -/
  | slot (q : Seq)
  deriving DecidableEq, Repr

/-- A word that has been read, if it has a letter. -/
def lexeme (cur : List Char) : List (List Char) := if cur = [] then [] else [cur]

/-- The words of a line; `|` is a word of its own, and `;` starts a comment (R79). That spaces alone separate words is DESIGN CHOICE,
log entry 14. -/
def lexFrom (cur : List Char) : List Char → List (List Char)
  | [] => lexeme cur
  | c :: cs =>
    if c = ';' then lexeme cur
    else if c = ' ' then lexeme cur ++ lexFrom [] cs
    else if c = '|' then lexeme cur ++ [['|']] ++ lexFrom [] cs
    else lexFrom (cur ++ [c]) cs

/-- `reg` of R79, with the select of 20_memory.md R57. -/
def regNames : List (String × Nat) :=
  [("TICKCNT", 0), ("EVENTMASK", 1), ("FLAGMASK", 2), ("COUNTDOWN", 3), ("MODE", 4), ("MODE_ADV", 5), ("TS0", 6), ("TS1", 7),
    ("TS2", 8), ("LED", 9), ("SEQ", 10), ("FAULT", 11), ("BATT", 12), ("DEVID", 13)]

/-- `mode` of R79, with the code of 10_state.md R31. -/
def modeNames : List (String × Nat) := [("NONE", 0), ("GAME_A", 1), ("GAME_A_VARIANT", 2), ("GAME_B", 3), ("GAME_C", 4)]

/-- `flag` of R79, with its bit's value (R72). -/
def flagNames : List (String × Nat) := [("DISPLAY_ACTIVE", 1), ("BEEP_ACTIVE", 2), ("BUTTON_PRESSED", 4)]

/-- `colour` of R79, with its bit's value (R72). -/
def colourNames : List (String × Nat) := [("RED", 1), ("YELLOW", 2), ("GREEN", 4)]

/-- The states a line `@<STATE>` can name: those in which the Sequencer can have a step (10_state.md R36). DESIGN
CHOICE, log entry 14. -/
def slotNames : List (String × Seq) :=
  [("IDLE", .idle), ("S1_MODE", .s1Mode), ("S2_TICK", .s2Tick), ("S3_BLINK", .s3Blink), ("S4_POLL", .s4Poll),
    ("S5_CLEAR", .s5Clear), ("S6_RENDER", .s6Render)]

/-- The entry of a name. -/
def lookupName {α : Type} (table : List (String × α)) (t : List Char) : Option α :=
  match table with
  | [] => none
  | (name, v) :: rest => if name.toList = t then some v else lookupName rest t

/-- One more decimal digit of a numeral. -/
def digitAfter (n : Option Nat) (c : Char) : Option Nat :=
  match n with
  | none => none
  | some v => if 48 ≤ c.toNat ∧ c.toNat ≤ 57 then some (10 * v + (c.toNat - 48)) else none

/-- A decimal numeral below `bound`: one that does not fit its field cannot be assembled (R79). The base is DESIGN CHOICE, log entry
14. -/
def numeral (bound : Nat) (t : List Char) : Option Nat :=
  match t with
  | [] => none
  | _ :: _ =>
    match t.foldl digitAfter (some 0) with
    | some v => if v < bound then some v else none
    | none => none

/-- A name or a numeral. -/
def nameOrNumeral (table : List (String × Nat)) (bound : Nat) (t : List Char) : Option Nat :=
  match lookupName table t with
  | some v => some v
  | none => numeral bound t

/-- Names with `|` between them: the bits of all of them. -/
def alternation (table : List (String × Nat)) : List (List Char) → Option Nat
  | [] => none
  | [t] => lookupName table t
  | t :: bar :: rest =>
    if bar = ['|'] then
      match lookupName table t, alternation table rest with
      | some v, some m => some (v ||| m)
      | _, _ => none
    else none

/-- `flags` and `colours` of R79: names with `|` between them, or one numeral. -/
def maskOperand (table : List (String × Nat)) (ts : List (List Char)) : Option Nat :=
  match alternation table ts, ts with
  | some m, _ => some m
  | none, [t] => numeral 8 t
  | none, _ => none

/-- The operation of a mnemonic and its operand words (R79). -/
def operationOf (mnemonic : List Char) (ts : List (List Char)) : Option Instr :=
  if mnemonic = "RD".toList then
    match ts with
    | [t] => (nameOrNumeral regNames 16 t).map fun v => .rd (BitVec.ofNat 4 v)
    | _ => none
  else if mnemonic = "WRMA".toList then
    match ts with
    | [t] => (nameOrNumeral modeNames 8 t).map fun v => .wrma (BitVec.ofNat 3 v)
    | _ => none
  else if mnemonic = "SETF".toList then (maskOperand flagNames ts).map fun v => .setf (BitVec.ofNat 3 v)
  else if mnemonic = "CLRF".toList then (maskOperand flagNames ts).map fun v => .clrf (BitVec.ofNat 3 v)
  else if mnemonic = "BLINK".toList then (maskOperand colourNames ts).map fun v => .blink (BitVec.ofNat 3 v)
  else if ts ≠ [] then none
  else if mnemonic = "HDONE".toList then some .hdone
  else if mnemonic = "TICK".toList then some .tick
  else if mnemonic = "BTN".toList then some .btn
  else none

/-- One line of text (R79), `none` where it cannot be assembled. -/
def parseLine (text : String) : Option Line :=
  match lexFrom [] text.toList with
  | [] => some .empty
  | ['@' :: name] => (lookupName slotNames name).map .slot
  | mnemonic :: ts => (operationOf mnemonic ts).map .op

/-- The word a line assembles to. -/
def assemble (text : String) : Option Word :=
  match parseLine text with
  | some (.op i) => some (encode i)
  | _ => none

/-- The agent's step a line of a test program stands for (95_test_vectors.md, L3): TICK and BTN are steps of the pins, any other
operation is a command word on the port, and `@<STATE>` is a Sequencer step. R79 does not say what the line does when SEQ is not the
state it names; here the name is dropped and the Sequencer steps from whatever state SEQ holds. DESIGN CHOICE, log entry 13;
unsafe. -/
def Line.input : Line → Option Input
  | .empty => none
  | .op i => some (inputOfWord (encode i))
  | .slot _ => some .sequencer

end Sys2Proof.Machine
end

