-- ==== Sys2Proof/Safety.lean ====
section
/-! DEFINITION. The words the claims are written in: what a step names next, the invariant of 10_state.md R41, quiescent and
terminal states, runs and fairness (70_reset_and_hazards.md R251, R252). -/

namespace Sys2Proof.Machine

/-- The next step is the Host's reset. -/
def resetNext (s : State) : Bool :=
  match s.inputs with
  | [] => false
  | .pin _ :: _ => false
  | .command _ :: _ => false
  | .sequencer :: _ => false
  | .reset _ :: _ => true

/-- The next step is the Sequencer's: `inputs` names it, or names nobody. -/
def sequencerNext (s : State) : Bool :=
  match s.inputs with
  | [] => true
  | .pin _ :: _ => false
  | .command _ :: _ => false
  | .sequencer :: _ => true
  | .reset _ :: _ => false

/-- The next step is that of pin `p`. -/
def pinNext (s : State) (p : Pin) : Prop := ∃ rest, s.inputs = .pin p :: rest

/-- The next step is the command port's, which receives `w`. -/
def commandNext (s : State) (w : Word) : Prop := ∃ rest, s.inputs = .command w :: rest

/-- The invariant of 10_state.md R41, with what the two windows say of MODE (41_dispatch_sequencer.md R122, R125, R127, R128). -/
structure Inv (s : State) : Prop where
  /-- EVENTMASK[7:6] = 0. -/
  eventReserved : s.eventmask &&& 0b11000000#8 = 0
  /-- FLAGMASK[7:3] = 0. -/
  flagReserved : s.flagmask &&& 0b11111000#8 = 0
  /-- MODE is a code in 0..4. -/
  modeLegal : (modeCode s.mode).toNat ≤ 4
  /-- MODE_ADV is a code in 0..4. -/
  modeAdvLegal : (modeCode s.modeAdv).toNat ≤ 4
  /-- SEQ is a code in 0..9. -/
  seqLegal : (seqCode s.seq).toNat ≤ 9
  /-- FAULT is a code in 0..5. -/
  faultLegal : (faultBits s.fault).toNat ≤ 5
  /-- An on-enter window is open only for a mode that declares an initializer. -/
  initWindow : s.seq = .s1Init → config.hasInit s.mode = true
  /-- A per-tick window is open only for a mode that owns a handler. -/
  callWindow : s.seq = .s2Call → s.mode ≠ .none

/-- A quiescent state (R252): the Sequencer has no step until a producer acts, and nothing has gone wrong. -/
def Quiescent (s : State) : Prop := s.seq = .idle ∧ s.eventmask = 0 ∧ s.flagmask = 0 ∧ s.fault = none

/-- A terminal state (R252). -/
def Terminal (s : State) : Prop := s.seq = .halt

/-- No command has faulted since reset: what a claim about a run takes as premise or states at its end (60_exceptions.md R205). -/
def Faultless (s : State) : Prop := s.fault = none

/-- A state that some finite run leaves (R252): from the block after reset, with any steps scheduled at any time. -/
inductive Reachable : State → Prop where
  /-- The block after reset, with any battery value. -/
  | boot (batt : Byte) : Reachable (State.afterReset config batt [] [] [])
  /-- Any agent's step may come next. -/
  | step {s t : State} (inputs : List Input) : Reachable s → step { s with inputs := inputs } = .next t → Reachable t

/-- An infinite run under a schedule: at each point the scheduled step is the one taken (00_scope.md R11). -/
def IsRun (schedule : Nat → Input) (x : Nat → State) : Prop :=
  ∀ n, step { x n with inputs := [schedule n] } = .next (x (n + 1))

/-- The progress assumptions of R251, and the only ones. -/
structure Fair (schedule : Nat → Input) (x : Nat → State) : Prop where
  /-- (a) TickPin steps infinitely often. -/
  ticks : ∀ n, ∃ m, n ≤ m ∧ schedule m = .pin .tick
  /-- (b) The Sequencer, when continuously enabled, eventually steps. -/
  sequencer : ∀ n, (∀ m, n ≤ m → (sequencerStep config (x m)).isSome = true) → ∃ m, n ≤ m ∧ schedule m = .sequencer
  /-- (c) The Handler sends HDONE after finitely many steps in each window. -/
  handler : ∀ n, isWindow (x n).seq = true → ∃ m, n ≤ m ∧ schedule m = .command 0x6000#16

end Sys2Proof.Machine
end

