-- ==== Sys2Proof/WellFormed.lean ====
section
/-! DEFINITION. Which operations hold legal operand values (30_encoding.md R77, R78). The field widths are in the types of the
operands. An operation with a reserved value still has a word, decodes, and runs: it raises the fault that R77 names. -/

namespace Sys2Proof

/-- R77: RD with select 14 or 15 and WRMA with a code of 5, 6 or 7 hold a reserved value; every other operand value is legal,
mask 0 and WRMA NONE among them. -/
def Instr.wellFormed : Instr → Bool
  | .rd sel => decide (sel.toNat < 14)
  | .wrma m => decide (m.toNat < 5)
  | .setf _ => true
  | .clrf _ => true
  | .blink _ => true
  | .hdone => true
  | .tick => true
  | .btn => true

end Sys2Proof
end

