-- ==== Sys2Proof/Certificates/Slice0/Obligations.lean ====
section
/-! DEFINITION. The statements for the provers. A docstring names the rules of spec/ a statement formalises. -/

open Sys2Proof Sys2Proof.Machine

/-! ## Encoding -/

/-- R81: the sixteen worked encodings, from the line of text to the word, and what each word decodes to. -/
def Obligations.SampleWordsDecode : Prop :=
  (assemble "RD TICKCNT" = some 0x1000#16 ∧ decode 0x1000#16 = .ok (.rd 0)) ∧
  (assemble "RD COUNTDOWN" = some 0x1300#16 ∧ decode 0x1300#16 = .ok (.rd 3)) ∧
  (assemble "RD LED" = some 0x1900#16 ∧ decode 0x1900#16 = .ok (.rd 9)) ∧
  (assemble "RD DEVID" = some 0x1D00#16 ∧ decode 0x1D00#16 = .ok (.rd 13)) ∧
  (assemble "WRMA GAME_A" = some 0x2001#16 ∧ decode 0x2001#16 = .ok (.wrma 1)) ∧
  (assemble "WRMA GAME_C" = some 0x2004#16 ∧ decode 0x2004#16 = .ok (.wrma 4)) ∧
  (assemble "WRMA NONE" = some 0x2000#16 ∧ decode 0x2000#16 = .ok (.wrma 0)) ∧
  (assemble "SETF DISPLAY_ACTIVE" = some 0x3001#16 ∧ decode 0x3001#16 = .ok (.setf 0b001)) ∧
  (assemble "SETF BEEP_ACTIVE" = some 0x3002#16 ∧ decode 0x3002#16 = .ok (.setf 0b010)) ∧
  (assemble "CLRF BUTTON_PRESSED" = some 0x4004#16 ∧ decode 0x4004#16 = .ok (.clrf 0b100)) ∧
  (assemble "CLRF DISPLAY_ACTIVE|BEEP_ACTIVE|BUTTON_PRESSED" = some 0x4007#16 ∧ decode 0x4007#16 = .ok (.clrf 0b111)) ∧
  (assemble "BLINK RED" = some 0x5001#16 ∧ decode 0x5001#16 = .ok (.blink 0b001)) ∧
  (assemble "BLINK RED|GREEN" = some 0x5005#16 ∧ decode 0x5005#16 = .ok (.blink 0b101)) ∧
  (assemble "HDONE" = some 0x6000#16 ∧ decode 0x6000#16 = .ok .hdone) ∧
  (assemble "TICK" = some 0x8000#16 ∧ decode 0x8000#16 = .ok .tick) ∧
  (assemble "BTN" = some 0x9000#16 ∧ decode 0x9000#16 = .ok .btn)

/-- R72, R73: no bit of an encoding is dropped; every operand value of every operation survives the round trip. -/
def Obligations.DecodeEncodeIdentity : Prop := ∀ i : Instr, decode (encode i) = .ok i

/-- R73, R78: each operation has one word. -/
def Obligations.EncodeDecodeIdentity : Prop := ∀ (w : Word) (i : Instr), decode w = .ok i → encode i = w

/-- R78, with the sets of R73, R75, R76 and R77 written out: every word is a legal operation with legal fields, an illegal opcode,
a reserved-bit fault or a reserved-value fault, and which one it is follows from its bits. -/
def Obligations.EveryWordClassified : Prop :=
  ∀ w : Word,
    (decode w = .error .illegalOp ↔ (w >>> 12).toNat ∈ [0x0, 0x7, 0xA, 0xB, 0xC, 0xD, 0xE, 0xF]) ∧
    (decode w = .error .rsvdBits ↔
      ((w >>> 12).toNat = 1 ∧ w &&& 0x00FF#16 ≠ 0) ∨ ((w >>> 12).toNat ∈ [2, 3, 4, 5] ∧ w &&& 0x0FF8#16 ≠ 0) ∨
      ((w >>> 12).toNat ∈ [6, 8, 9] ∧ w &&& 0x0FFF#16 ≠ 0)) ∧
    ((∃ i : Instr, decode w = .ok i ∧ i.wellFormed = false) ↔
      w = 0x1E00#16 ∨ w = 0x1F00#16 ∨ w = 0x2005#16 ∨ w = 0x2006#16 ∨ w = 0x2007#16) ∧
    ((∃ i : Instr, decode w = .ok i ∧ i.wellFormed = true) ↔
      (w &&& 0xF0FF#16 = 0x1000#16 ∧ w.toNat < 0x1E00) ∨ (w &&& 0xFFF8#16 = 0x2000#16 ∧ w.toNat < 0x2005) ∨
      w &&& 0xFFF8#16 = 0x3000#16 ∨ w &&& 0xFFF8#16 = 0x4000#16 ∨ w &&& 0xFFF8#16 = 0x5000#16 ∨
      w = 0x6000#16 ∨ w = 0x8000#16 ∨ w = 0x9000#16)

/-! ## The step relation and the command port -/

/-- R179 and R203: the decode procedure of a command word, check by check, then the rule of the operation; and R203's example. -/
def Obligations.PortFollowsDecodeProcedure : Prop :=
  (∀ (s : State) (w : Word) (rest : List Input), s.inputs = .command w :: rest →
    let p : State := { s with inputs := rest }
    let faulted (code : FaultCode) : Host.Outcome State Fault Refusal :=
      .next { p with fault := some (p.fault.getD code), resps := p.resps ++ [.fault code] }
    let op := (w >>> 12).toNat
    let mbz : Word := if op = 1 then 0x00FF#16 else if op = 6 then 0x0FFF#16 else 0x0FF8#16
    step s =
      if op ∉ [1, 2, 3, 4, 5, 6] then faulted .illegalOp
      else if w &&& mbz ≠ 0 then faulted .rsvdBits
      else if op ≠ 1 ∧ s.seq ≠ .s1Init ∧ s.seq ≠ .s2Call then faulted .window
      else if op = 1 then exec (.rd (w.extractLsb' 8 4)) p
      else if op = 2 then exec (.wrma (w.extractLsb' 0 3)) p
      else if op = 3 then exec (.setf (w.extractLsb' 0 3)) p
      else if op = 4 then exec (.clrf (w.extractLsb' 0 3)) p
      else if op = 5 then exec (.blink (w.extractLsb' 0 3)) p
      else exec .hdone p) ∧
  (∀ (s : State) (rest : List Input), s.inputs = .command 0x2105#16 :: rest → s.seq = .idle →
    step s = .next { s with
      inputs := rest, fault := some (s.fault.getD .rsvdBits), resps := s.resps ++ [.fault .rsvdBits] })

/-- R177, R178: a reserved opcode and an input-event word on the port raise ILLEGAL_OP, whatever their other bits, and change nothing
else; so the port never performs TICK or BTN. -/
def Obligations.PortRejectsReservedAndEventOpcodes : Prop :=
  ∀ (s : State) (w : Word) (rest : List Input), s.inputs = .command w :: rest →
    (w >>> 12).toNat ∈ [0x0, 0x7, 0x8, 0x9, 0xA, 0xB, 0xC, 0xD, 0xE, 0xF] →
    step s = .next { s with
      inputs := rest, fault := some (s.fault.getD .illegalOp), resps := s.resps ++ [.fault .illegalOp] }

/-- A step runs the decoded operation: a command word through the port's decoder, a pin's input-event word as TICK or BTN (R74). -/
def Obligations.StepRunsDecodedOperation : Prop :=
  (∀ (s : State) (w : Word) (i : Instr) (rest : List Input), s.inputs = .command w :: rest → decodePort w = .ok i →
    step s = exec i { s with inputs := rest }) ∧
  (∀ (s : State) (rest : List Input), s.inputs = .pin .tick :: rest → step s = exec .tick { s with inputs := rest }) ∧
  (∀ (s : State) (rest : List Input), s.inputs = .pin .button :: rest → step s = exec .btn { s with inputs := rest })

/-- R11: the pins, the port and the reset input have a step in every state, and the Sequencer has one unless SEQ is IDLE with no work
pending, a handler window, or HALT. -/
def Obligations.AnyEnabledStepMayComeNext : Prop :=
  (∀ (s : State) (m : Input) (rest : List Input), m ≠ .sequencer → ∃ t, step { s with inputs := m :: rest } = .next t) ∧
  (∀ (s : State) (rest : List Input),
    (∃ t, step { s with inputs := .sequencer :: rest } = .next t) ↔
      ¬((s.seq = .idle ∧ s.eventmask = 0 ∧ s.flagmask = 0) ∨ s.seq = .s1Init ∨ s.seq = .s2Call ∨ s.seq = .halt))

/-! ## The producers -/

/-- R100: the effect of TICK on each register it writes, and that it writes no other; in HALT it does nothing. -/
def Obligations.TickEffect : Prop :=
  decode 0x8000#16 = .ok .tick ∧
  (∀ s : State, s.seq ≠ .halt → ∃ t, exec .tick s = .next t ∧
    t.tickcnt.toNat = (s.tickcnt.toNat + 1) % 256 ∧
    t.countdown.toNat = (if 1 < s.countdown.toNat then s.countdown.toNat - 1 else s.countdown.toNat) ∧
    (∀ i : Nat, t.eventmask.getLsbD i =
      (s.eventmask.getLsbD i || decide (i = 0) || (decide (i = 1) && decide (t.tickcnt.toNat % 16 = 0)) ||
        (decide (i = 2) && decide (t.tickcnt = config.longPollMatch)))) ∧
    t = { s with tickcnt := t.tickcnt, countdown := t.countdown, eventmask := t.eventmask }) ∧
  (∀ s : State, s.seq = .halt → exec .tick s = .next s)

/-- R101: over any run without a reset, outside HALT, TICKCNT grows by the number of TICKs, modulo 256; in HALT it stands still; and
nothing but a TICK, by one, or a reset changes it. -/
def Obligations.TickCounterLaw : Prop :=
  (∀ (n : Nat) (s t : State), s.seq ≠ .halt → (∀ b, Input.reset b ∉ s.inputs.take n) → core.run n s = .next t →
    t.tickcnt.toNat = (s.tickcnt.toNat + (s.inputs.take n).count (.pin .tick)) % 256) ∧
  (∀ s t : State, s.seq = .halt → exec .tick s = .next t → t.tickcnt = s.tickcnt) ∧
  (∀ s t : State, step s = .next t → t.tickcnt ≠ s.tickcnt →
    resetNext s = true ∨ (pinNext s .tick ∧ s.seq ≠ .halt ∧ t.tickcnt = s.tickcnt + 1))

/-- R102: over any run with no reload, that is without a reset, a BTN or a committed transition, outside HALT, k TICKs take COUNTDOWN from
n ≥ 1 to max(1, n - k), and leave 0 at 0; and 0 appears only from 0, from a reset, or from a reload with DISPLAY_HOLD = 0. -/
def Obligations.CountdownLaw : Prop :=
  (∀ (n : Nat) (s t : State), s.seq ≠ .halt → (∀ b, Input.reset b ∉ s.inputs.take n) →
    Input.pin .button ∉ s.inputs.take n →
    (∀ (k : Nat) (u : State), k < n → core.run k s = .next u →
      ¬(u.seq = .s1Mode ∧ sequencerNext u = true ∧ u.modeAdv ≠ .none ∧ u.modeAdv ≠ u.mode)) →
    core.run n s = .next t →
    (1 ≤ s.countdown.toNat →
      t.countdown.toNat = max 1 (s.countdown.toNat - (s.inputs.take n).count (.pin .tick))) ∧
    (s.countdown = 0 → t.countdown = 0)) ∧
  (∀ s t : State, step s = .next t → t.countdown = 0 →
    s.countdown = 0 ∨ resetNext s = true ∨ config.displayHold = 0)

/-- R103, R104: of 16 TICKs in a row exactly one sets SHORT_POLL, and of 256 in a row exactly one sets LONG_POLL, whatever
LONG_POLL_MATCH is. A TICK sets a bit if it is 1 after that TICK runs with EVENTMASK empty. -/
def Obligations.PollEventsArePeriodic : Prop :=
  (∀ (s : State) (rest : List Input), s.seq ≠ .halt → s.inputs = List.replicate 16 (.pin .tick) ++ rest →
    ∃ k, (k < 16 ∧ ∃ u t, core.run k s = .next u ∧ exec .tick { u with eventmask := 0 } = .next t ∧
        t.eventmask.getLsbD 1 = true) ∧
      ∀ j, (j < 16 ∧ ∃ u t, core.run j s = .next u ∧ exec .tick { u with eventmask := 0 } = .next t ∧
        t.eventmask.getLsbD 1 = true) → j = k) ∧
  (∀ (s : State) (rest : List Input), s.seq ≠ .halt → s.inputs = List.replicate 256 (.pin .tick) ++ rest →
    ∃ k, (k < 256 ∧ ∃ u t, core.run k s = .next u ∧ exec .tick { u with eventmask := 0 } = .next t ∧
        t.eventmask.getLsbD 2 = true) ∧
      ∀ j, (j < 256 ∧ ∃ u t, core.run j s = .next u ∧ exec .tick { u with eventmask := 0 } = .next t ∧
        t.eventmask.getLsbD 2 = true) → j = k)

/-- R105: BTN sets DISPLAY_ACTIVE and BUTTON_PRESSED and reloads COUNTDOWN, and writes nothing else; in HALT it does nothing. -/
def Obligations.BtnEffect : Prop :=
  decode 0x9000#16 = .ok .btn ∧
  (∀ s : State, s.seq ≠ .halt →
    exec .btn s = .next { s with flagmask := s.flagmask ||| 0b101#8, countdown := config.displayHold }) ∧
  (∀ s : State, s.seq = .halt → exec .btn s = .next s)

/-- R106: n ≥ 1 BTNs in a row leave the state of one; and after any pin steps, a last BTN and k TICKs leave COUNTDOWN at DISPLAY_HOLD
less k, floored at 1 (0 stays 0). -/
def Obligations.RepeatedButtonEdges : Prop :=
  (∀ (n : Nat) (s : State) (rest : List Input),
    core.run (n + 1) { s with inputs := List.replicate (n + 1) (.pin .button) ++ rest } =
      core.run 1 { s with inputs := .pin .button :: rest }) ∧
  (∀ (s : State) (before : List Pin) (k : Nat) (rest : List Input), s.seq ≠ .halt →
    s.inputs = before.map .pin ++ .pin .button :: (List.replicate k (.pin .tick) ++ rest) →
    ∃ t, core.run (before.length + 1 + k) s = .next t ∧
      t.countdown.toNat = if config.displayHold = 0 then 0 else max 1 (config.displayHold.toNat - k))

/-- R107, R135: in HALT the pins change nothing and the Sequencer has no step; only reset leaves HALT; HALT is entered only by a reset
whose battery value is below the threshold of an enabled low-battery check. -/
def Obligations.HaltLeftOnlyByReset : Prop :=
  (∀ s : State, s.seq = .halt →
    exec .tick s = .next s ∧ exec .btn s = .next s ∧ sequencerStep config s = none) ∧
  (∀ s t : State, step s = .next t → s.seq = .halt → resetNext s = false → t.seq = .halt) ∧
  (∀ s t : State, step s = .next t → t.seq = .halt →
    s.seq = .halt ∨ ∃ batt rest, s.inputs = .reset batt :: rest ∧ config.lowbatEnable = true ∧
      batt.toNat < config.lowbatThreshold.toNat)

/-- R108, R109: a producer clears no mask bit and writes no register but TICKCNT, COUNTDOWN and the masks; and after a TICK or BTN
outside HALT a waiting Sequencer has its step. -/
def Obligations.ProducersOnlySetAndWake : Prop :=
  (∀ (s t : State) (i : Instr), i = .tick ∨ i = .btn → exec i s = .next t →
    (∀ b : Nat, s.eventmask.getLsbD b = true → t.eventmask.getLsbD b = true) ∧
    (∀ b : Nat, s.flagmask.getLsbD b = true → t.flagmask.getLsbD b = true) ∧
    t = { s with tickcnt := t.tickcnt, countdown := t.countdown, eventmask := t.eventmask, flagmask := t.flagmask }) ∧
  (∀ s t : State, s.seq ≠ .halt → exec .tick s = .next t → t.eventmask ≠ 0) ∧
  (∀ s t : State, s.seq ≠ .halt → exec .btn s = .next t → t.flagmask ≠ 0) ∧
  (∀ (s t : State) (i : Instr) (rest : List Input), i = .tick ∨ i = .btn → s.seq = .idle → exec i s = .next t →
    step { t with inputs := .sequencer :: rest } = .next { t with seq := .s1Mode, inputs := rest })

/-- R208: TICK then BTN leaves DISPLAY_HOLD, BTN then TICK leaves one less if it is greater than 1, and the two orders differ in
nothing but COUNTDOWN. -/
def Obligations.TickButtonOrderMatters : Prop :=
  ∀ s a b c d : State, s.seq ≠ .halt → exec .tick s = .next a → exec .btn a = .next b → exec .btn s = .next c →
    exec .tick c = .next d →
    b.countdown = config.displayHold ∧
    d.countdown.toNat = (if 1 < config.displayHold.toNat then config.displayHold.toNat - 1 else config.displayHold.toNat) ∧
    d = { b with countdown := d.countdown }

/-! ## The commands -/

/-- R57, R170: RD's encoding and its must-be-zero bits; the read-select map, each register zero-extended to 16 bits, in every
sequencer state; and the two reserved selects, which raise BAD_SEL. -/
def Obligations.ReadSelectMap : Prop :=
  (∀ sel : BitVec 4, (encode (.rd sel)).toNat = 0x1000 + 0x100 * sel.toNat) ∧
  (∀ (s : State) (w : Word) (rest : List Input), s.inputs = .command w :: rest → (w >>> 12).toNat = 1 →
    w &&& 0x00FF#16 ≠ 0 → step s = .next { s with
      inputs := rest, fault := some (s.fault.getD .rsvdBits), resps := s.resps ++ [.fault .rsvdBits] }) ∧
  ∀ s : State,
    let answers (v : Nat) : Host.Outcome State Fault Refusal :=
      .next { s with resps := s.resps ++ [.value (BitVec.ofNat 16 v)] }
    let badSel : Host.Outcome State Fault Refusal :=
      .next { s with fault := some (s.fault.getD .badSel), resps := s.resps ++ [.fault .badSel] }
    exec (.rd 0) s = answers s.tickcnt.toNat ∧ exec (.rd 1) s = answers s.eventmask.toNat ∧
    exec (.rd 2) s = answers s.flagmask.toNat ∧ exec (.rd 3) s = answers s.countdown.toNat ∧
    exec (.rd 4) s = answers (modeCode s.mode).toNat ∧ exec (.rd 5) s = answers (modeCode s.modeAdv).toNat ∧
    exec (.rd 6) s = answers s.ts.red.toNat ∧ exec (.rd 7) s = answers s.ts.yellow.toNat ∧
    exec (.rd 8) s = answers s.ts.green.toNat ∧
    exec (.rd 9) s = answers (4 * s.led.green.toNat + 2 * s.led.yellow.toNat + s.led.red.toNat) ∧
    exec (.rd 10) s = answers (seqCode s.seq).toNat ∧ exec (.rd 11) s = answers (faultBits s.fault).toNat ∧
    exec (.rd 12) s = answers s.batt.toNat ∧ exec (.rd 13) s = answers config.deviceId.toNat ∧
    exec (.rd 14) s = badSel ∧ exec (.rd 15) s = badSel

/-- R31, R36, R202: the codes a register of named values reads as. -/
def Obligations.RegisterCodes : Prop :=
  [ModeTag.none, .gameA, .gameAVariant, .gameB, .gameC].map (fun m => (modeCode m).toNat) = [0, 1, 2, 3, 4] ∧
  [Seq.idle, .s1Mode, .s1Init, .s2Tick, .s2Call, .s3Blink, .s4Poll, .s5Clear, .s6Render, .halt].map
    (fun q => (seqCode q).toNat) = [0, 1, 2, 3, 4, 5, 6, 7, 8, 9] ∧
  [none, some FaultCode.illegalOp, some .rsvdBits, some .window, some .badMode, some .badSel].map
    (fun f => (faultBits f).toNat) = [0, 1, 2, 3, 4, 5]

/-- R54: a read of a legal select changes no register, and two reads of one select in a row answer the same. -/
def Obligations.ReadsHaveNoSideEffect : Prop :=
  (∀ (s : State) (sel : BitVec 4), sel.toNat < 14 →
    ∃ v, exec (.rd sel) s = .next { s with resps := s.resps ++ [.value v] }) ∧
  (∀ (s t u : State) (sel : BitVec 4), exec (.rd sel) s = .next t → exec (.rd sel) t = .next u →
    ∃ r, t.resps = s.resps ++ [r] ∧ u.resps = t.resps ++ [r] ∧ (u = { t with resps := u.resps }))

/-- R171: WRMA's encoding, its must-be-zero bits, its effect in a window, and its two other faults. -/
def Obligations.WrmaEffect : Prop :=
  (∀ m : BitVec 3, (encode (.wrma m)).toNat = 0x2000 + m.toNat) ∧
  (∀ (s : State) (w : Word) (rest : List Input), s.inputs = .command w :: rest → (w >>> 12).toNat = 2 →
    w &&& 0x0FF8#16 ≠ 0 → step s = .next { s with
      inputs := rest, fault := some (s.fault.getD .rsvdBits), resps := s.resps ++ [.fault .rsvdBits] }) ∧
  (∀ (s : State) (m : BitVec 3), isWindow s.seq = true → m.toNat < 5 →
    ∃ tag, modeCode tag = m ∧ exec (.wrma m) s = .next { s with modeAdv := tag, resps := s.resps ++ [.value 0] }) ∧
  (∀ (s : State) (m : BitVec 3), isWindow s.seq = true → 5 ≤ m.toNat →
    exec (.wrma m) s = .next { s with fault := some (s.fault.getD .badMode), resps := s.resps ++ [.fault .badMode] }) ∧
  (∀ (s : State) (m : BitVec 3), isWindow s.seq = false →
    exec (.wrma m) s = .next { s with fault := some (s.fault.getD .window), resps := s.resps ++ [.fault .window] })

/-- R172: SETF's encoding, its must-be-zero bits, its effect in a window, and WINDOW outside one. -/
def Obligations.SetfEffect : Prop :=
  (∀ m : BitVec 3, (encode (.setf m)).toNat = 0x3000 + m.toNat) ∧
  (∀ (s : State) (w : Word) (rest : List Input), s.inputs = .command w :: rest → (w >>> 12).toNat = 3 →
    w &&& 0x0FF8#16 ≠ 0 → step s = .next { s with
      inputs := rest, fault := some (s.fault.getD .rsvdBits), resps := s.resps ++ [.fault .rsvdBits] }) ∧
  (∀ (s : State) (m : BitVec 3), isWindow s.seq = true → ∃ t, exec (.setf m) s = .next t ∧
    (∀ b : Nat, t.flagmask.getLsbD b = (s.flagmask.getLsbD b || m.getLsbD b)) ∧
    t = { s with flagmask := t.flagmask, resps := s.resps ++ [.value 0] }) ∧
  (∀ (s : State) (m : BitVec 3), isWindow s.seq = false →
    exec (.setf m) s = .next { s with fault := some (s.fault.getD .window), resps := s.resps ++ [.fault .window] })

/-- R173: CLRF's encoding, its must-be-zero bits, its effect in a window, and WINDOW outside one. -/
def Obligations.ClrfEffect : Prop :=
  (∀ m : BitVec 3, (encode (.clrf m)).toNat = 0x4000 + m.toNat) ∧
  (∀ (s : State) (w : Word) (rest : List Input), s.inputs = .command w :: rest → (w >>> 12).toNat = 4 →
    w &&& 0x0FF8#16 ≠ 0 → step s = .next { s with
      inputs := rest, fault := some (s.fault.getD .rsvdBits), resps := s.resps ++ [.fault .rsvdBits] }) ∧
  (∀ (s : State) (m : BitVec 3), isWindow s.seq = true → ∃ t, exec (.clrf m) s = .next t ∧
    (∀ b : Nat, t.flagmask.getLsbD b = (s.flagmask.getLsbD b && !m.getLsbD b)) ∧
    t = { s with flagmask := t.flagmask, resps := s.resps ++ [.value 0] }) ∧
  (∀ (s : State) (m : BitVec 3), isWindow s.seq = false →
    exec (.clrf m) s = .next { s with fault := some (s.fault.getD .window), resps := s.resps ++ [.fault .window] })

/-- R174: BLINK's encoding, its must-be-zero bits, its effect in a window (cmask bit c sets EVENTMASK bit 3 + c), and WINDOW outside
one. -/
def Obligations.BlinkEffect : Prop :=
  (∀ m : BitVec 3, (encode (.blink m)).toNat = 0x5000 + m.toNat) ∧
  (∀ (s : State) (w : Word) (rest : List Input), s.inputs = .command w :: rest → (w >>> 12).toNat = 5 →
    w &&& 0x0FF8#16 ≠ 0 → step s = .next { s with
      inputs := rest, fault := some (s.fault.getD .rsvdBits), resps := s.resps ++ [.fault .rsvdBits] }) ∧
  (∀ (s : State) (m : BitVec 3), isWindow s.seq = true → ∃ t, exec (.blink m) s = .next t ∧
    (∀ b : Nat, t.eventmask.getLsbD b = (s.eventmask.getLsbD b || (decide (3 ≤ b) && m.getLsbD (b - 3)))) ∧
    t = { s with eventmask := t.eventmask, resps := s.resps ++ [.value 0] }) ∧
  (∀ (s : State) (m : BitVec 3), isWindow s.seq = false →
    exec (.blink m) s = .next { s with fault := some (s.fault.getD .window), resps := s.resps ++ [.fault .window] })

/-- R175: HDONE's encoding, its must-be-zero bits, where it leaves each window, and WINDOW outside one. -/
def Obligations.HdoneEffect : Prop :=
  encode .hdone = 0x6000#16 ∧
  (∀ (s : State) (w : Word) (rest : List Input), s.inputs = .command w :: rest → (w >>> 12).toNat = 6 →
    w &&& 0x0FFF#16 ≠ 0 → step s = .next { s with
      inputs := rest, fault := some (s.fault.getD .rsvdBits), resps := s.resps ++ [.fault .rsvdBits] }) ∧
  (∀ s : State, s.seq = .s1Init → exec .hdone s = .next { s with seq := .s2Tick, resps := s.resps ++ [.value 0] }) ∧
  (∀ s : State, s.seq = .s2Call → exec .hdone s = .next { s with seq := .s3Blink, resps := s.resps ++ [.value 0] }) ∧
  (∀ s : State, s.seq ≠ .s1Init → s.seq ≠ .s2Call →
    exec .hdone s = .next { s with fault := some (s.fault.getD .window), resps := s.resps ++ [.fault .window] })

/-- R176: outside the two windows a mutating command raises WINDOW and changes nothing else, whatever its operands; RD never raises
WINDOW. -/
def Obligations.MutatingCommandsNeedWindow : Prop :=
  (∀ (s : State) (i : Instr), s.seq ≠ .s1Init → s.seq ≠ .s2Call →
    (i = .hdone ∨ ∃ m : BitVec 3, i = .wrma m ∨ i = .setf m ∨ i = .clrf m ∨ i = .blink m) →
    exec i s = .next { s with fault := some (s.fault.getD .window), resps := s.resps ++ [.fault .window] }) ∧
  (∀ (s t : State) (sel : BitVec 4), exec (.rd sel) s = .next t → t.resps ≠ s.resps ++ [.fault .window])

/-- R204, R182: a command that answers with a fault writes FAULT only if it was 0, answers its own code, and changes nothing else, SEQ
and OUT among it, so a window stays open. -/
def Obligations.FaultingCommandOnlyRecords : Prop :=
  ∀ (s t : State) (w : Word) (rest : List Input) (code : FaultCode), s.inputs = .command w :: rest → step s = .next t →
    t.resps = s.resps ++ [.fault code] →
    t = { s with inputs := rest, fault := some (s.fault.getD code), resps := s.resps ++ [.fault code] }

/-- R201: FAULT keeps the first fault's code until reset; and it is written only by a command whose answer carries that code. -/
def Obligations.FaultStickyUntilReset : Prop :=
  (∀ (s t : State) (code : FaultCode), step s = .next t → s.fault = some code → resetNext s = false → t.fault = some code) ∧
  (∀ (s t : State) (code : FaultCode), step s = .next t → s.fault = none → t.fault = some code →
    (∃ w, commandNext s w) ∧ t.resps = s.resps ++ [.fault code])

/-- R181: what no command can do. -/
def Obligations.CommandsCannotReachOtherState : Prop :=
  ∀ (s t : State) (w : Word) (rest : List Input), s.inputs = .command w :: rest → step s = .next t →
    (∀ b : Nat, s.eventmask.getLsbD b = true → t.eventmask.getLsbD b = true) ∧
    t.tickcnt = s.tickcnt ∧ t.countdown = s.countdown ∧ t.mode = s.mode ∧ t.ts = s.ts ∧ t.led = s.led ∧ t.batt = s.batt ∧
    t.out = s.out ∧ (t.seq ≠ s.seq → w = 0x6000#16) ∧
    (t.fault ≠ s.fault → ∃ code, t.fault = some code ∧ t.resps = s.resps ++ [.fault code])

/-- R55: a repeated SETF, CLRF, BLINK or WRMA changes no register again. -/
def Obligations.RepeatedCommandsIdempotent : Prop :=
  ∀ (s t u : State) (i : Instr) (m : BitVec 3), i = .wrma m ∨ i = .setf m ∨ i = .clrf m ∨ i = .blink m →
    exec i s = .next t → exec i t = .next u → u = { t with resps := u.resps }

/-! ## The sequencer -/

/-- R120, R121: the idle check steps on any set mask bit and writes SEQ alone; with both masks empty the Sequencer has no step, and
commands of any number and kind leave the block idle, with nothing appended to OUT and no register but FAULT changed. -/
def Obligations.IdleWaitsForWork : Prop :=
  (∀ (s : State) (rest : List Input), s.inputs = .sequencer :: rest → s.seq = .idle → s.eventmask ≠ 0 ∨ s.flagmask ≠ 0 →
    step s = .next { s with seq := .s1Mode, inputs := rest }) ∧
  (∀ s : State, s.seq = .idle → s.eventmask = 0 → s.flagmask = 0 → sequencerStep config s = none) ∧
  (∀ (s : State) (ws : List Word), s.seq = .idle → s.eventmask = 0 → s.flagmask = 0 → s.inputs = ws.map .command →
    ∃ t, core.run ws.length s = .next t ∧ sequencerStep config t = none ∧
      t = { s with fault := t.fault, resps := t.resps, inputs := [] })

/-- R122: S1_MODE commits exactly under the guard, with its events in order, and otherwise moves SEQ alone. -/
def Obligations.ModeSlotCommits : Prop :=
  ∀ (s : State) (rest : List Input), s.inputs = .sequencer :: rest → s.seq = .s1Mode →
    (s.modeAdv ≠ .none ∧ s.modeAdv ≠ s.mode →
      step s = .next { s with
        inputs := rest
        mode := s.modeAdv
        modeAdv := .none
        flagmask := s.flagmask ||| 0b001#8
        countdown := config.displayHold
        seq := if config.hasInit s.modeAdv then .s1Init else .s2Tick
        out := s.out ++ [.showId config.deviceId, .beep] ++ if config.hasInit s.modeAdv then [.onEnter s.modeAdv] else [] }) ∧
    (s.modeAdv = .none ∨ s.modeAdv = s.mode → step s = .next { s with seq := .s2Tick, inputs := rest })

/-- R123: apart from reset, MODE changes only in S1_MODE, under the guard, to the advertised mode, and under the guard it always does; so
it never becomes NONE. -/
def Obligations.ModeChangesOnlyInSlotOne : Prop :=
  (∀ s t : State, step s = .next t → resetNext s = false → t.mode ≠ s.mode →
    s.seq = .s1Mode ∧ sequencerNext s = true ∧ s.modeAdv ≠ .none ∧ s.modeAdv ≠ s.mode ∧ t.mode = s.modeAdv) ∧
  (∀ s t : State, step s = .next t → s.seq = .s1Mode → sequencerNext s = true → s.modeAdv ≠ .none → s.modeAdv ≠ s.mode →
    t.mode = s.modeAdv) ∧
  (∀ s t : State, step s = .next t → resetNext s = false → s.mode ≠ .none → t.mode ≠ .none)

/-- R126, R246: an advertisement of the current mode stays, with MODE, through every step but a WRMA and a reset, and S1_MODE then emits
nothing. -/
def Obligations.StaleAdvertisementNeverFires : Prop :=
  (∀ s t : State, step s = .next t → resetNext s = false → s.modeAdv = s.mode → s.mode ≠ .none →
    (∀ w, commandNext s w → w &&& 0xFFF8#16 ≠ 0x2000#16) → t.mode = s.mode ∧ t.modeAdv = s.modeAdv) ∧
  (∀ (s : State) (rest : List Input), s.inputs = .sequencer :: rest → s.seq = .s1Mode → s.modeAdv = s.mode →
    step s = .next { s with seq := .s2Tick, inputs := rest })

/-- R127: S2_TICK dispatches to the active mode when the TICK bit is set and MODE is not NONE. -/
def Obligations.TickSlotDispatches : Prop :=
  ∀ (s : State) (rest : List Input), s.inputs = .sequencer :: rest → s.seq = .s2Tick →
    (s.eventmask.getLsbD 0 = true ∧ s.mode ≠ .none →
      step s = .next { s with seq := .s2Call, inputs := rest, out := s.out ++ [.processTick s.mode] }) ∧
    (s.eventmask.getLsbD 0 = false ∨ s.mode = .none → step s = .next { s with seq := .s3Blink, inputs := rest })

/-- R129: S4_POLL emits ShortPoll and LongPoll, in that order, for the bits that are set. -/
def Obligations.PollSlotEmitsHooks : Prop :=
  ∀ (s : State) (rest : List Input), s.inputs = .sequencer :: rest → s.seq = .s4Poll →
    step s = .next { s with
      seq := .s5Clear
      inputs := rest
      out := s.out ++ (if s.eventmask.getLsbD 1 then [.shortPoll] else []) ++
        (if s.eventmask.getLsbD 2 then [.longPoll] else []) }

/-- R130: S5_CLEAR clears all of EVENTMASK and nothing else. -/
def Obligations.ClearSlotEmptiesEventmask : Prop :=
  ∀ (s : State) (rest : List Input), s.inputs = .sequencer :: rest → s.seq = .s5Clear →
    step s = .next { s with eventmask := 0, seq := .s6Render, inputs := rest }

/-- R131: S6_RENDER emits exactly one render event, by DISPLAY_ACTIVE, and returns to the idle check. -/
def Obligations.RenderSlotEmitsOneEvent : Prop :=
  ∀ (s : State) (rest : List Input), s.inputs = .sequencer :: rest → s.seq = .s6Render →
    (s.flagmask.getLsbD 0 = true →
      step s = .next { s with seq := .idle, inputs := rest, out := s.out ++ [.renderDigits] }) ∧
    (s.flagmask.getLsbD 0 = false →
      step s = .next { s with
        seq := .idle, inputs := rest, out := s.out ++ [.renderPlain s.led.red s.led.yellow s.led.green] })

/-- R25, R26: an EVENTMASK bit goes from 1 to 0 only in S5_CLEAR, which clears them all, or at reset; it goes from 0 to 1 only by a TICK
(bits 0 to 2) or by a BLINK word in a window (bits 3 to 5). -/
def Obligations.EventmaskProtocol : Prop :=
  (∀ (s t : State) (b : Nat), step s = .next t → s.eventmask.getLsbD b = true → t.eventmask.getLsbD b = false →
    resetNext s = true ∨ (s.seq = .s5Clear ∧ sequencerNext s = true ∧ t.eventmask = 0)) ∧
  (∀ (s t : State) (b : Nat), step s = .next t → s.eventmask.getLsbD b = false → t.eventmask.getLsbD b = true →
    (b < 3 ∧ pinNext s .tick) ∨
      (3 ≤ b ∧ b < 6 ∧ isWindow s.seq = true ∧ ∃ w, commandNext s w ∧ w &&& 0xFFF8#16 = 0x5000#16 ∧ w.getLsbD (b - 3) = true))

/-- R27, R28: a FLAGMASK bit goes from 1 to 0 only by a CLRF word in a window or at reset; it goes from 0 to 1 only by a SETF word in a
window, by BTN (bits 0 and 2), or by a committed transition (bit 0). -/
def Obligations.FlagmaskProtocol : Prop :=
  (∀ (s t : State) (b : Nat), step s = .next t → s.flagmask.getLsbD b = true → t.flagmask.getLsbD b = false →
    resetNext s = true ∨
      (isWindow s.seq = true ∧ ∃ w, commandNext s w ∧ w &&& 0xFFF8#16 = 0x4000#16 ∧ w.getLsbD b = true)) ∧
  (∀ (s t : State) (b : Nat), step s = .next t → s.flagmask.getLsbD b = false → t.flagmask.getLsbD b = true →
    (b < 3 ∧ isWindow s.seq = true ∧ ∃ w, commandNext s w ∧ w &&& 0xFFF8#16 = 0x3000#16 ∧ w.getLsbD b = true) ∨
      ((b = 0 ∨ b = 2) ∧ pinNext s .button) ∨
      (b = 0 ∧ s.seq = .s1Mode ∧ sequencerNext s = true ∧ s.modeAdv ≠ .none ∧ s.modeAdv ≠ s.mode))

/-! ## The blink timer -/

/-- R155: S3_BLINK latches and stamps the requested colours, turns off the others whose stamp is more than BLINK_DURATION away, emits
one SetIndicator per colour in order, and changes nothing else. -/
def Obligations.BlinkSlotEffect : Prop :=
  ∀ (s : State) (rest : List Input), s.inputs = .sequencer :: rest → s.seq = .s3Blink →
    ∃ t, step s = .next t ∧
      (∀ k : Colour,
        (s.eventmask.getLsbD (3 + k.index) = true → t.led.get k = true ∧ t.ts.get k = s.tickcnt) ∧
        (s.eventmask.getLsbD (3 + k.index) = false →
          t.led.get k = (s.led.get k && decide (tickDist s.tickcnt (s.ts.get k) ≤ config.blinkDuration.toNat)) ∧
          t.ts.get k = s.ts.get k)) ∧
      t = { s with
        inputs := rest
        seq := .s4Poll
        ts := t.ts
        led := t.led
        out := s.out ++ [.setIndicator .red t.led.red, .setIndicator .yellow t.led.yellow, .setIndicator .green t.led.green] }

/-- R156: an LED goes on only in an S3_BLINK step that finds its request bit set; apart from reset it goes off only in an S3_BLINK step
that finds the bit clear and the stamp expired. For every choice of the parameters. -/
def Obligations.LatchChangesOnlyInBlinkSlot : Prop :=
  (∀ (c : Config) (s t : State) (k : Colour), sequencerStep c s = some t → s.led.get k = false → t.led.get k = true →
    s.seq = .s3Blink ∧ s.eventmask.getLsbD (3 + k.index) = true) ∧
  (∀ (c : Config) (s t : State) (k : Colour), sequencerStep c s = some t → s.led.get k = true → t.led.get k = false →
    s.seq = .s3Blink ∧ s.eventmask.getLsbD (3 + k.index) = false ∧ c.blinkDuration.toNat < tickDist s.tickcnt (s.ts.get k)) ∧
  (∀ s t : State, step s = .next t → sequencerNext s = false → resetNext s = false → t.led = s.led)

/-- R150, R151: the forward delta, the distance as the smaller of the forward and backward deltas, and the laws of the distance. -/
def Obligations.DistanceLaws : Prop :=
  (∀ t s : Byte, (fwd t s).toNat = (t.toNat + (256 - s.toNat)) % 256 ∧
    tickDist t s = min (fwd t s).toNat (256 - (fwd t s).toNat) ∧ tickDist t s = min (fwd t s).toNat (fwd s t).toNat) ∧
  (∀ t s : Byte, tickDist t s ≤ 128 ∧ (tickDist t s = 0 ↔ t = s) ∧ (tickDist t s = 128 ↔ (fwd t s).toNat = 128) ∧
    tickDist t s = tickDist s t) ∧
  (∀ t s k : Byte, tickDist (t + k) (s + k) = tickDist t s) ∧
  (∀ (n : Nat) (s : Byte), tickDist (BitVec.ofNat 8 (n + 256)) s = tickDist (BitVec.ofNat 8 n) s) ∧
  (∀ (s : Byte) (k : Nat), (k ≤ 128 → tickDist (s + BitVec.ofNat 8 k) s = k) ∧
    (129 ≤ k → k ≤ 255 → tickDist (s + BitVec.ofNat 8 k) s = 256 - k))

/-- R153, R154: the comparator is strict, and it holds exactly in the expiry band; never, from a duration of 128. -/
def Obligations.ExpiryBand : Prop :=
  ∀ (c : Config) (t s : Byte),
    (expired c t s = true ↔ c.blinkDuration.toNat < tickDist t s) ∧
    (c.blinkDuration.toNat ≤ 127 →
      (expired c t s = true ↔ c.blinkDuration.toNat + 1 ≤ (fwd t s).toNat ∧ (fwd t s).toNat ≤ 255 - c.blinkDuration.toNat)) ∧
    (c.blinkDuration = 8 → (expired c t s = true ↔ 9 ≤ (fwd t s).toNat ∧ (fwd t s).toNat ≤ 247)) ∧
    (128 ≤ c.blinkDuration.toNat → expired c t s = false)

/-- R157: an S3_BLINK step that finds no request and an expired stamp leaves the LED off; a TICK never changes an LED. -/
def Obligations.AutoOffAfterTimeout : Prop :=
  (∀ (c : Config) (s t : State) (k : Colour), s.seq = .s3Blink → s.eventmask.getLsbD (3 + k.index) = false →
    c.blinkDuration.toNat < tickDist s.tickcnt (s.ts.get k) → sequencerStep c s = some t → t.led.get k = false) ∧
  (∀ s t : State, exec .tick s = .next t → t.led = s.led)

/-! ## Runs and hazards -/

/-- R247: in a window, any number of pin steps and commands without HDONE leave SEQ and every LED as they are and clear no EVENTMASK
bit; and the Sequencer has no step. -/
def Obligations.HandlerHangHoldsWindow : Prop :=
  ∀ (ms : List Input) (s : State), isWindow s.seq = true → s.inputs = ms →
    (∀ m ∈ ms, (∃ p, m = .pin p) ∨ ∃ w, m = .command w ∧ w ≠ 0x6000#16) →
    ∃ t, core.run ms.length s = .next t ∧ t.seq = s.seq ∧ t.led = s.led ∧ sequencerStep config t = none ∧
      ∀ b : Nat, s.eventmask.getLsbD b = true → t.eventmask.getLsbD b = true

/-- R132: the fixed order. Every step but a reset leaves SEQ alone or moves it along one arrow; a window is left only by HDONE, any
other state only by the Sequencer; the two windows are entered only under the conditions of R122 and R127. -/
def Obligations.FixedSlotOrder : Prop :=
  ∀ s t : State, step s = .next t →
    (resetNext s = true → t.seq = .idle ∨ t.seq = .halt) ∧
    (resetNext s = false → t.seq ≠ s.seq →
      (s.seq, t.seq) ∈ [(Seq.idle, Seq.s1Mode), (.s1Mode, .s1Init), (.s1Mode, .s2Tick), (.s1Init, .s2Tick), (.s2Tick, .s2Call),
        (.s2Tick, .s3Blink), (.s2Call, .s3Blink), (.s3Blink, .s4Poll), (.s4Poll, .s5Clear), (.s5Clear, .s6Render),
        (.s6Render, .idle)] ∧
      (isWindow s.seq = true → commandNext s 0x6000#16) ∧
      (isWindow s.seq = false → sequencerNext s = true) ∧
      (t.seq = .s1Init → s.modeAdv ≠ .none ∧ s.modeAdv ≠ s.mode ∧ config.hasInit s.modeAdv = true) ∧
      (t.seq = .s2Call → s.eventmask.getLsbD 0 = true ∧ s.mode ≠ .none))

/-- R132, R136: a pass with no transition due and no tick to dispatch runs alone from the idle check back to it in seven steps, whatever
woke it, and leaves TS, LED, the masks and OUT as the slots say. -/
def Obligations.PassWithoutWindowCompletes : Prop :=
  ∀ s : State, s.seq = .idle → s.inputs = [] → s.eventmask ≠ 0 ∨ s.flagmask ≠ 0 →
    s.modeAdv = .none ∨ s.modeAdv = s.mode → s.eventmask.getLsbD 0 = false ∨ s.mode = .none →
    ∃ t, core.run 7 s = .next t ∧
      (∀ k : Colour,
        t.ts.get k = (if s.eventmask.getLsbD (3 + k.index) then s.tickcnt else s.ts.get k) ∧
        t.led.get k = (s.eventmask.getLsbD (3 + k.index) ||
          (s.led.get k && decide (tickDist s.tickcnt (s.ts.get k) ≤ config.blinkDuration.toNat)))) ∧
      t = { s with
        eventmask := 0
        ts := t.ts
        led := t.led
        out := s.out ++
          [.setIndicator .red t.led.red, .setIndicator .yellow t.led.yellow, .setIndicator .green t.led.green] ++
          (if s.eventmask.getLsbD 1 then [.shortPoll] else []) ++ (if s.eventmask.getLsbD 2 then [.longPoll] else []) ++
          (if s.flagmask.getLsbD 0 then [.renderDigits] else [.renderPlain t.led.red t.led.yellow t.led.green]) }

/-- R240, R241: a TICK after S2_TICK and before S5_CLEAR still counts, but its TICK bit is cleared with no ProcessTick; after S4_POLL
its poll bits are cleared with no poll event either. -/
def Obligations.LateTickEventIsLost : Prop :=
  ∀ (s : State) (n : Nat) (rest : List Input), (s.seq, n) ∈ [(Seq.s3Blink, 3), (.s4Poll, 2), (.s5Clear, 1)] →
    s.inputs = .pin .tick :: (List.replicate n .sequencer ++ rest) →
    ∃ t evs, core.run (n + 1) s = .next t ∧ t.seq = .s6Render ∧ t.eventmask = 0 ∧ t.tickcnt = s.tickcnt + 1 ∧
      t.out = s.out ++ evs ∧ (∀ m, OutEvent.processTick m ∉ evs) ∧ (s.seq = .s5Clear → evs = [])

/-- R134 with R26: in any run in which no step is a reset or the step of S5_CLEAR, an EVENTMASK bit that is set stays set, whatever
the agents do in between; so its consumer slot, which comes before S5_CLEAR, finds it. -/
def Obligations.EventBitSurvivesUntilClear : Prop :=
  ∀ (n : Nat) (s t : State) (b : Nat), core.run n s = .next t → s.eventmask.getLsbD b = true →
    (∀ (k : Nat) (u : State), k < n → core.run k s = .next u →
      resetNext u = false ∧ ¬(u.seq = .s5Clear ∧ sequencerNext u = true)) →
    t.eventmask.getLsbD b = true

/-- R158, R244: an S3_BLINK step that comes after the expiry band has passed, at a forward delta of 256 - BLINK_DURATION or more, leaves
a latched LED that is not requested on. -/
def Obligations.StarvedLatchStaysOn : Prop :=
  ∀ (c : Config) (s t : State) (k : Colour), s.seq = .s3Blink → s.eventmask.getLsbD (3 + k.index) = false →
    s.led.get k = true → c.blinkDuration.toNat ≤ 127 → 256 - c.blinkDuration.toNat ≤ (fwd s.tickcnt (s.ts.get k)).toNat →
    sequencerStep c s = some t → t.led.get k = true ∧ t.ts.get k = s.ts.get k

/-- R245: while MODE and MODE_ADV are NONE and no window is open, no step but a reset opens a window, sets a mode, or clears a flag. -/
def Obligations.NoWindowOpensWithoutMode : Prop :=
  ∀ s t : State, s.mode = .none → s.modeAdv = .none → isWindow s.seq = false → step s = .next t → resetNext s = false →
    t.mode = .none ∧ t.modeAdv = .none ∧ isWindow t.seq = false ∧
      ∀ b : Nat, s.flagmask.getLsbD b = true → t.flagmask.getLsbD b = true

/-- R20, R40: steps only append to OUT, and no step reads it: with any other OUT the same step is taken and appends the same. -/
def Obligations.OutAppendOnlyAndNeverRead : Prop :=
  (∀ s t : State, step s = .next t → ∃ evs, t.out = s.out ++ evs) ∧
  (∀ (s t : State) (o : List OutEvent), step s = .next t → step { s with out := o ++ s.out } = .next { t with out := o ++ t.out })

/-- R251 with R132: under the three progress assumptions and without a reset, a block that is not halted comes to each slot again and
again. -/
def Obligations.FairRunsReachEverySlot : Prop :=
  ∀ (schedule : Nat → Input) (x : Nat → State), IsRun schedule x → Fair schedule x → (∀ n b, schedule n ≠ .reset b) →
    (x 0).seq ≠ .halt →
    ∀ q ∈ [Seq.idle, .s1Mode, .s2Tick, .s3Blink, .s4Poll, .s5Clear, .s6Render], ∀ n, ∃ m, n ≤ m ∧ (x m).seq = q

/-! ## Reset and the invariant -/

/-- R230, R231, R235: reset, from any state, in one step: every register at its value, the low-battery check, OUT kept. -/
def Obligations.ResetEffect : Prop :=
  ∀ (s : State) (batt : Byte) (rest : List Input), s.inputs = .reset batt :: rest →
    ∃ t, step s = .next t ∧
      t.tickcnt = 0 ∧ t.countdown = 0 ∧ t.eventmask = 0 ∧ t.flagmask = 0 ∧ t.mode = .none ∧ t.modeAdv = config.bootModeAdv ∧
      t.ts = ⟨0, 0, 0⟩ ∧ t.led = ⟨false, false, false⟩ ∧ t.fault = none ∧ t.batt = batt ∧ t.out = s.out ∧
      (config.lowbatEnable = true ∧ batt.toNat < config.lowbatThreshold.toNat → t.seq = .halt) ∧
      (¬(config.lowbatEnable = true ∧ batt.toNat < config.lowbatThreshold.toNat) → t.seq = .idle)

/-- R38: what the block holds after power-on. That OUT, the response trace and the schedule start empty is the model's own choice (log
entry 5). -/
def Obligations.PowerOnState : Prop :=
  let s := State.reset
  s.tickcnt = 0 ∧ s.countdown = 0 ∧ s.eventmask = 0 ∧ s.flagmask = 0 ∧ s.mode = .none ∧ s.modeAdv = config.bootModeAdv ∧
  s.ts = ⟨0, 0, 0⟩ ∧ s.led = ⟨false, false, false⟩ ∧ s.fault = none ∧
  (s.seq = .halt ↔ config.lowbatEnable = true ∧ s.batt.toNat < config.lowbatThreshold.toNat) ∧
  (s.seq = .idle ↔ ¬(config.lowbatEnable = true ∧ s.batt.toNat < config.lowbatThreshold.toNat)) ∧
  s.out = [] ∧ s.resps = [] ∧ s.inputs = []

/-- R236: the boot scenario, for every choice of the parameters that meets its premises: reset, one TICK, the idle check, S1_MODE. -/
def Obligations.BootScenario : Prop :=
  ∀ (c : Config) (batt : Byte) (o : List OutEvent) (rs : List Response) (ms : List Input),
    c.bootModeAdv = .gameA → c.hasInit .gameA = true → c.lowbatEnable = false →
    ∃ a b, sequencerStep c (tick c (State.afterReset c batt o rs ms)) = some a ∧ sequencerStep c a = some b ∧
      b.mode = .gameA ∧ b.modeAdv = .none ∧ b.flagmask.getLsbD 0 = true ∧ b.countdown = c.displayHold ∧ b.seq = .s1Init ∧
      b.out = o ++ [.showId c.deviceId, .beep, .onEnter .gameA]

/-- R41: every step keeps the invariant. -/
def Obligations.StepKeepsInvariant : Prop := ∀ s t : State, Inv s → step s = .next t → Inv t

/-- R41: the invariant holds after power-on. -/
def Obligations.PowerOnMeetsInvariant : Prop := Inv State.reset

/-- R41: every state that some finite run from power-on leaves, whatever the agents do, meets the invariant; its first six clauses are
the rule's, the two on the windows come from R122 and R127. -/
def Obligations.ReachableStatesMeetInvariant : Prop := ∀ s : State, Reachable s → Inv s
end

