-- ==== Sys2Proof/Laws/State.lean ====
section
/-! SUPPORT. What each shared operation does to each field of State: one lemma per field per operation. -/

namespace Sys2Proof.Machine

variable (s : State)

@[simp] theorem emit_tickcnt (es : List OutEvent) : (emit es s).tickcnt = s.tickcnt := rfl
@[simp] theorem emit_countdown (es : List OutEvent) : (emit es s).countdown = s.countdown := rfl
@[simp] theorem emit_eventmask (es : List OutEvent) : (emit es s).eventmask = s.eventmask := rfl
@[simp] theorem emit_flagmask (es : List OutEvent) : (emit es s).flagmask = s.flagmask := rfl
@[simp] theorem emit_mode (es : List OutEvent) : (emit es s).mode = s.mode := rfl
@[simp] theorem emit_modeAdv (es : List OutEvent) : (emit es s).modeAdv = s.modeAdv := rfl
@[simp] theorem emit_ts (es : List OutEvent) : (emit es s).ts = s.ts := rfl
@[simp] theorem emit_led (es : List OutEvent) : (emit es s).led = s.led := rfl
@[simp] theorem emit_fault (es : List OutEvent) : (emit es s).fault = s.fault := rfl
@[simp] theorem emit_batt (es : List OutEvent) : (emit es s).batt = s.batt := rfl
@[simp] theorem emit_seq (es : List OutEvent) : (emit es s).seq = s.seq := rfl
@[simp] theorem emit_out (es : List OutEvent) : (emit es s).out = s.out ++ es := rfl
@[simp] theorem emit_resps (es : List OutEvent) : (emit es s).resps = s.resps := rfl
@[simp] theorem emit_inputs (es : List OutEvent) : (emit es s).inputs = s.inputs := rfl

@[simp] theorem respond_tickcnt (v : Word) : (respond v s).tickcnt = s.tickcnt := rfl
@[simp] theorem respond_countdown (v : Word) : (respond v s).countdown = s.countdown := rfl
@[simp] theorem respond_eventmask (v : Word) : (respond v s).eventmask = s.eventmask := rfl
@[simp] theorem respond_flagmask (v : Word) : (respond v s).flagmask = s.flagmask := rfl
@[simp] theorem respond_mode (v : Word) : (respond v s).mode = s.mode := rfl
@[simp] theorem respond_modeAdv (v : Word) : (respond v s).modeAdv = s.modeAdv := rfl
@[simp] theorem respond_ts (v : Word) : (respond v s).ts = s.ts := rfl
@[simp] theorem respond_led (v : Word) : (respond v s).led = s.led := rfl
@[simp] theorem respond_fault (v : Word) : (respond v s).fault = s.fault := rfl
@[simp] theorem respond_batt (v : Word) : (respond v s).batt = s.batt := rfl
@[simp] theorem respond_seq (v : Word) : (respond v s).seq = s.seq := rfl
@[simp] theorem respond_out (v : Word) : (respond v s).out = s.out := rfl
@[simp] theorem respond_resps (v : Word) : (respond v s).resps = s.resps ++ [.value v] := rfl
@[simp] theorem respond_inputs (v : Word) : (respond v s).inputs = s.inputs := rfl

@[simp] theorem raiseFault_tickcnt (code : FaultCode) : (raiseFault code s).tickcnt = s.tickcnt := rfl
@[simp] theorem raiseFault_countdown (code : FaultCode) : (raiseFault code s).countdown = s.countdown := rfl
@[simp] theorem raiseFault_eventmask (code : FaultCode) : (raiseFault code s).eventmask = s.eventmask := rfl
@[simp] theorem raiseFault_flagmask (code : FaultCode) : (raiseFault code s).flagmask = s.flagmask := rfl
@[simp] theorem raiseFault_mode (code : FaultCode) : (raiseFault code s).mode = s.mode := rfl
@[simp] theorem raiseFault_modeAdv (code : FaultCode) : (raiseFault code s).modeAdv = s.modeAdv := rfl
@[simp] theorem raiseFault_ts (code : FaultCode) : (raiseFault code s).ts = s.ts := rfl
@[simp] theorem raiseFault_led (code : FaultCode) : (raiseFault code s).led = s.led := rfl
@[simp] theorem raiseFault_fault (code : FaultCode) : (raiseFault code s).fault = some (s.fault.getD code) := rfl
@[simp] theorem raiseFault_batt (code : FaultCode) : (raiseFault code s).batt = s.batt := rfl
@[simp] theorem raiseFault_seq (code : FaultCode) : (raiseFault code s).seq = s.seq := rfl
@[simp] theorem raiseFault_out (code : FaultCode) : (raiseFault code s).out = s.out := rfl
@[simp] theorem raiseFault_resps (code : FaultCode) : (raiseFault code s).resps = s.resps ++ [.fault code] := rfl
@[simp] theorem raiseFault_inputs (code : FaultCode) : (raiseFault code s).inputs = s.inputs := rfl

@[simp] theorem gotoSeq_tickcnt (q : Seq) : (gotoSeq q s).tickcnt = s.tickcnt := rfl
@[simp] theorem gotoSeq_countdown (q : Seq) : (gotoSeq q s).countdown = s.countdown := rfl
@[simp] theorem gotoSeq_eventmask (q : Seq) : (gotoSeq q s).eventmask = s.eventmask := rfl
@[simp] theorem gotoSeq_flagmask (q : Seq) : (gotoSeq q s).flagmask = s.flagmask := rfl
@[simp] theorem gotoSeq_mode (q : Seq) : (gotoSeq q s).mode = s.mode := rfl
@[simp] theorem gotoSeq_modeAdv (q : Seq) : (gotoSeq q s).modeAdv = s.modeAdv := rfl
@[simp] theorem gotoSeq_ts (q : Seq) : (gotoSeq q s).ts = s.ts := rfl
@[simp] theorem gotoSeq_led (q : Seq) : (gotoSeq q s).led = s.led := rfl
@[simp] theorem gotoSeq_fault (q : Seq) : (gotoSeq q s).fault = s.fault := rfl
@[simp] theorem gotoSeq_batt (q : Seq) : (gotoSeq q s).batt = s.batt := rfl
@[simp] theorem gotoSeq_seq (q : Seq) : (gotoSeq q s).seq = q := rfl
@[simp] theorem gotoSeq_out (q : Seq) : (gotoSeq q s).out = s.out := rfl
@[simp] theorem gotoSeq_resps (q : Seq) : (gotoSeq q s).resps = s.resps := rfl
@[simp] theorem gotoSeq_inputs (q : Seq) : (gotoSeq q s).inputs = s.inputs := rfl

@[simp] theorem assertReset_tickcnt (c : Config) (b : Byte) : (assertReset c b s).tickcnt = 0 := rfl
@[simp] theorem assertReset_countdown (c : Config) (b : Byte) : (assertReset c b s).countdown = 0 := rfl
@[simp] theorem assertReset_eventmask (c : Config) (b : Byte) : (assertReset c b s).eventmask = 0 := rfl
@[simp] theorem assertReset_flagmask (c : Config) (b : Byte) : (assertReset c b s).flagmask = 0 := rfl
@[simp] theorem assertReset_mode (c : Config) (b : Byte) : (assertReset c b s).mode = .none := rfl
@[simp] theorem assertReset_modeAdv (c : Config) (b : Byte) : (assertReset c b s).modeAdv = c.bootModeAdv := rfl
@[simp] theorem assertReset_ts (c : Config) (b : Byte) : (assertReset c b s).ts = ⟨0, 0, 0⟩ := rfl
@[simp] theorem assertReset_led (c : Config) (b : Byte) : (assertReset c b s).led = ⟨false, false, false⟩ := rfl
@[simp] theorem assertReset_fault (c : Config) (b : Byte) : (assertReset c b s).fault = none := rfl
@[simp] theorem assertReset_batt (c : Config) (b : Byte) : (assertReset c b s).batt = b := rfl
@[simp] theorem assertReset_seq (c : Config) (b : Byte) : (assertReset c b s).seq = State.bootSeq c b := rfl
@[simp] theorem assertReset_out (c : Config) (b : Byte) : (assertReset c b s).out = s.out := rfl
@[simp] theorem assertReset_resps (c : Config) (b : Byte) : (assertReset c b s).resps = s.resps := rfl
@[simp] theorem assertReset_inputs (c : Config) (b : Byte) : (assertReset c b s).inputs = s.inputs := rfl

@[simp] theorem tick_flagmask (c : Config) : (tick c s).flagmask = s.flagmask := by unfold tick; split <;> rfl
@[simp] theorem tick_mode (c : Config) : (tick c s).mode = s.mode := by unfold tick; split <;> rfl
@[simp] theorem tick_modeAdv (c : Config) : (tick c s).modeAdv = s.modeAdv := by unfold tick; split <;> rfl
@[simp] theorem tick_ts (c : Config) : (tick c s).ts = s.ts := by unfold tick; split <;> rfl
@[simp] theorem tick_led (c : Config) : (tick c s).led = s.led := by unfold tick; split <;> rfl
@[simp] theorem tick_fault (c : Config) : (tick c s).fault = s.fault := by unfold tick; split <;> rfl
@[simp] theorem tick_batt (c : Config) : (tick c s).batt = s.batt := by unfold tick; split <;> rfl
@[simp] theorem tick_seq (c : Config) : (tick c s).seq = s.seq := by unfold tick; split <;> rfl
@[simp] theorem tick_out (c : Config) : (tick c s).out = s.out := by unfold tick; split <;> rfl
@[simp] theorem tick_resps (c : Config) : (tick c s).resps = s.resps := by unfold tick; split <;> rfl
@[simp] theorem tick_inputs (c : Config) : (tick c s).inputs = s.inputs := by unfold tick; split <;> rfl

@[simp] theorem btn_tickcnt (c : Config) : (btn c s).tickcnt = s.tickcnt := by unfold btn; split <;> rfl
@[simp] theorem btn_eventmask (c : Config) : (btn c s).eventmask = s.eventmask := by unfold btn; split <;> rfl
@[simp] theorem btn_mode (c : Config) : (btn c s).mode = s.mode := by unfold btn; split <;> rfl
@[simp] theorem btn_modeAdv (c : Config) : (btn c s).modeAdv = s.modeAdv := by unfold btn; split <;> rfl
@[simp] theorem btn_ts (c : Config) : (btn c s).ts = s.ts := by unfold btn; split <;> rfl
@[simp] theorem btn_led (c : Config) : (btn c s).led = s.led := by unfold btn; split <;> rfl
@[simp] theorem btn_fault (c : Config) : (btn c s).fault = s.fault := by unfold btn; split <;> rfl
@[simp] theorem btn_batt (c : Config) : (btn c s).batt = s.batt := by unfold btn; split <;> rfl
@[simp] theorem btn_seq (c : Config) : (btn c s).seq = s.seq := by unfold btn; split <;> rfl
@[simp] theorem btn_out (c : Config) : (btn c s).out = s.out := by unfold btn; split <;> rfl
@[simp] theorem btn_resps (c : Config) : (btn c s).resps = s.resps := by unfold btn; split <;> rfl
@[simp] theorem btn_inputs (c : Config) : (btn c s).inputs = s.inputs := by unfold btn; split <;> rfl

/-- TICK in HALT (R107). -/
theorem tick_of_halt (c : Config) (h : s.seq = .halt) : tick c s = s := if_pos h

/-- TICK outside HALT (R100). -/
theorem tick_of_not_halt (c : Config) (h : s.seq ≠ .halt) :
    tick c s =
      { s with
        tickcnt := s.tickcnt + 1
        countdown := countdownTick s.countdown
        eventmask := setBits s.eventmask (tickBits c (s.tickcnt + 1)) } := if_neg h

/-- BTN in HALT (R107). -/
theorem btn_of_halt (c : Config) (h : s.seq = .halt) : btn c s = s := if_pos h

/-- BTN outside HALT (R105). -/
theorem btn_of_not_halt (c : Config) (h : s.seq ≠ .halt) :
    btn c s =
      { s with
        flagmask := setBits s.flagmask (flDisplayActive ||| flButtonPressed)
        countdown := c.displayHold } := if_neg h

@[simp] theorem PerColour.get_ofFn {α : Type} (f : Colour → α) (k : Colour) : (PerColour.ofFn f).get k = f k := by
  cases k <;> rfl

@[simp] theorem PerColour.ofFn_red {α : Type} (f : Colour → α) : (PerColour.ofFn f).red = f .red := rfl
@[simp] theorem PerColour.ofFn_yellow {α : Type} (f : Colour → α) : (PerColour.ofFn f).yellow = f .yellow := rfl
@[simp] theorem PerColour.ofFn_green {α : Type} (f : Colour → α) : (PerColour.ofFn f).green = f .green := rfl

end Sys2Proof.Machine
end

