-- ==== Sys2Proof/Laws/Ops.lean ====
section
/-! SUPPORT. One lemma per shared operation that says what it answers: the window gate, the commands, the decoder's front doors. -/

namespace Sys2Proof.Machine

theorem isWindow_iff (q : Seq) : isWindow q = true ↔ q = .s1Init ∨ q = .s2Call := by cases q <;> simp [isWindow]

theorem isWindow_eq_false_iff (q : Seq) : isWindow q = false ↔ q ≠ .s1Init ∧ q ≠ .s2Call := by cases q <;> simp [isWindow]

/-- A mutating command in a window runs (R176). -/
theorem whenInWindow_of_window (run : State → State) (s : State) (h : isWindow s.seq = true) : whenInWindow run s = run s := if_pos h

/-- A mutating command outside a window only raises WINDOW (R176). -/
theorem whenInWindow_of_not_window (run : State → State) (s : State) (h : isWindow s.seq = false) :
    whenInWindow run s = raiseFault .window s := if_neg (by simp [h])

@[simp] theorem modeOfCode_modeCode (m : ModeTag) : modeOfCode (modeCode m) = some m := by cases m <;> rfl

/-- A legal code names the mode it is the code of (R31). -/
theorem modeOfCode_of_lt (m : BitVec 3) (h : m.toNat < 5) : ∃ tag, modeOfCode m = some tag ∧ modeCode tag = m := by
  revert m; decide

/-- A reserved code names no mode (R31, R77). -/
theorem modeOfCode_of_ge (m : BitVec 3) (h : 5 ≤ m.toNat) : modeOfCode m = none := by
  revert m; decide

/-- A legal select names a register (R57). -/
theorem readSel_of_lt (c : Config) (sel : BitVec 4) (s : State) (h : sel.toNat < 14) : ∃ v, readSel c sel s = some v := by
  unfold readSel
  split <;> simp_all
  omega

/-- A reserved select names none (R57). -/
theorem readSel_of_ge (c : Config) (sel : BitVec 4) (s : State) (h : 14 ≤ sel.toNat) : readSel c sel s = none := by
  have hs : sel = 14#4 ∨ sel = 15#4 := by revert sel; decide
  rcases hs with rfl | rfl <;> rfl

/-- RD answers a value and changes nothing, or raises BAD_SEL (R170). -/
theorem readCommand_cases (c : Config) (sel : BitVec 4) (s : State) :
    (∃ v, readSel c sel s = some v ∧ readCommand c sel s = respond v s) ∨
      (14 ≤ sel.toNat ∧ readCommand c sel s = raiseFault .badSel s) := by
  unfold readCommand
  by_cases h : sel.toNat < 14
  · obtain ⟨v, hv⟩ := readSel_of_lt c sel s h
    exact .inl ⟨v, hv, by simp [hv]⟩
  · exact .inr ⟨by omega, by simp [readSel_of_ge c sel s (by omega)]⟩

/-- WRMA's rule writes MODE_ADV alone, or raises BAD_MODE (R171). -/
theorem advertise_cases (m : BitVec 3) (s : State) :
    (∃ tag, modeOfCode m = some tag ∧ modeCode tag = m ∧ advertise m s = respond 0 { s with modeAdv := tag }) ∨
      (5 ≤ m.toNat ∧ advertise m s = raiseFault .badMode s) := by
  unfold advertise
  by_cases h : m.toNat < 5
  · obtain ⟨tag, ht, hc⟩ := modeOfCode_of_lt m h
    exact .inl ⟨tag, ht, hc, by simp [ht]⟩
  · exact .inr ⟨by omega, by simp [modeOfCode_of_ge m (by omega)]⟩

theorem exec_rd (sel : BitVec 4) (s : State) : exec (.rd sel) s = .next (readCommand config sel s) := rfl
theorem exec_wrma (m : BitVec 3) (s : State) : exec (.wrma m) s = .next (whenInWindow (advertise m) s) := rfl
theorem exec_setf (m : BitVec 3) (s : State) : exec (.setf m) s = .next (whenInWindow (setFlags m) s) := rfl
theorem exec_clrf (m : BitVec 3) (s : State) : exec (.clrf m) s = .next (whenInWindow (clearFlags m) s) := rfl
theorem exec_blink (m : BitVec 3) (s : State) : exec (.blink m) s = .next (whenInWindow (requestBlink m) s) := rfl
theorem exec_hdone (s : State) : exec .hdone s = .next (whenInWindow closeWindow s) := rfl
theorem exec_tick (s : State) : exec .tick s = .next (tick config s) := rfl
theorem exec_btn (s : State) : exec .btn s = .next (btn config s) := rfl

/-- Every operation completes: none ends in a fault of the model or a refusal. -/
theorem exec_next (i : Instr) (s : State) : ∃ t, exec i s = .next t := by cases i <;> exact ⟨_, rfl⟩

/-- TickPin's word is TICK (R74). -/
@[simp] theorem runPin_tick (s : State) : runPin .tick s = .next (tick config s) := rfl
/-- ButtonPin's word is BTN (R74). -/
@[simp] theorem runPin_button (s : State) : runPin .button s = .next (btn config s) := rfl

theorem decodePort_ok {w : Word} {i : Instr} (h : decodePort w = .ok i) : decode w = .ok i := by
  unfold decodePort at h
  split at h
  · cases h
  · exact h

theorem runCommand_ok {w : Word} {i : Instr} (h : decodePort w = .ok i) (s : State) : runCommand w s = exec i s := by
  simp only [runCommand, h, runDecoded]

theorem runCommand_error {w : Word} {r : Reject} (h : decodePort w = .error r) (s : State) :
    runCommand w s = .next (raiseFault (rejectCode r) s) := by
  simp only [runCommand, h, runDecoded]

/-- A command word always completes. -/
theorem runCommand_next (w : Word) (s : State) : ∃ t, runCommand w s = .next t := by
  rcases h : decodePort w with r | i
  · exact ⟨_, runCommand_error h s⟩
  · obtain ⟨t, ht⟩ := exec_next i s
    exact ⟨t, by rw [runCommand_ok h, ht]⟩

end Sys2Proof.Machine
end

