-- ==== Sys2Proof/Laws/Words.lean ====
section
/-! SUPPORT. What the decoder says of a word, field by field. -/

namespace Sys2Proof

/-- A word passes its must-be-zero check exactly when it decodes there (R76). -/
theorem checkMbz_ok {w mbz : Word} {i j : Instr} : checkMbz w mbz i = .ok j ↔ w &&& mbz = 0 ∧ i = j := by
  unfold checkMbz
  split <;> simp_all

theorem checkMbz_error {w mbz : Word} {i : Instr} {r : Reject} : checkMbz w mbz i = .error r ↔ w &&& mbz ≠ 0 ∧ r = .rsvdBits := by
  unfold checkMbz
  split <;> simp_all [eq_comm]

/-- OP as a number. -/
theorem opField_toNat (w : Word) : (opField w).toNat = w.toNat / 4096 := by
  have := w.isLt
  simp [opField, BitVec.extractLsb'_toNat, Nat.shiftRight_eq_div_pow]
  omega

/-- The input-event opcodes (R74). -/
theorem isEventOp_iff (w : Word) : isEventOp w = true ↔ (opField w).toNat = 8 ∨ (opField w).toNat = 9 := by
  simp [isEventOp, ← BitVec.toNat_inj]

/-- What the decoder answers by OP: the check of that row, or an illegal opcode (R71, R73). -/
theorem decode_cases (w : Word) :
    ((opField w).toNat = 1 ∧ decode w = checkMbz w 0x00FF#16 (.rd (selField w))) ∨
    ((opField w).toNat = 2 ∧ decode w = checkMbz w 0x0FF8#16 (.wrma (valField w))) ∨
    ((opField w).toNat = 3 ∧ decode w = checkMbz w 0x0FF8#16 (.setf (valField w))) ∨
    ((opField w).toNat = 4 ∧ decode w = checkMbz w 0x0FF8#16 (.clrf (valField w))) ∨
    ((opField w).toNat = 5 ∧ decode w = checkMbz w 0x0FF8#16 (.blink (valField w))) ∨
    ((opField w).toNat = 6 ∧ decode w = checkMbz w 0x0FFF#16 .hdone) ∨
    ((opField w).toNat = 8 ∧ decode w = checkMbz w 0x0FFF#16 .tick) ∨
    ((opField w).toNat = 9 ∧ decode w = checkMbz w 0x0FFF#16 .btn) ∨
    ((opField w).toNat ∉ [1, 2, 3, 4, 5, 6, 8, 9] ∧ decode w = .error .illegalOp) := by
  unfold decode
  split <;> simp_all

/-- What a word that decodes looks like: its OP, its must-be-zero bits, and the operation read from its fields (R72, R73). -/
theorem decode_ok {w : Word} {i : Instr} (h : decode w = .ok i) :
    ((opField w).toNat = 1 ∧ w &&& 0x00FF#16 = 0 ∧ i = .rd (selField w)) ∨
    ((opField w).toNat = 2 ∧ w &&& 0x0FF8#16 = 0 ∧ i = .wrma (valField w)) ∨
    ((opField w).toNat = 3 ∧ w &&& 0x0FF8#16 = 0 ∧ i = .setf (valField w)) ∨
    ((opField w).toNat = 4 ∧ w &&& 0x0FF8#16 = 0 ∧ i = .clrf (valField w)) ∨
    ((opField w).toNat = 5 ∧ w &&& 0x0FF8#16 = 0 ∧ i = .blink (valField w)) ∨
    ((opField w).toNat = 6 ∧ w &&& 0x0FFF#16 = 0 ∧ i = .hdone) ∨
    ((opField w).toNat = 8 ∧ w &&& 0x0FFF#16 = 0 ∧ i = .tick) ∨
    ((opField w).toNat = 9 ∧ w &&& 0x0FFF#16 = 0 ∧ i = .btn) := by
  rcases decode_cases w with ⟨ho, hd⟩ | ⟨ho, hd⟩ | ⟨ho, hd⟩ | ⟨ho, hd⟩ | ⟨ho, hd⟩ | ⟨ho, hd⟩ | ⟨ho, hd⟩ | ⟨ho, hd⟩ | ⟨ho, hd⟩ <;>
    rw [hd] at h <;> first | (obtain ⟨hm, rfl⟩ := checkMbz_ok.1 h; simp [ho, hm]) | cases h

/-- The port performs no input event (R178). -/
theorem decodePort_not_event {w : Word} {i : Instr} (h : decodePort w = .ok i) : i ≠ .tick ∧ i ≠ .btn := by
  unfold decodePort at h
  split at h
  · cases h
  · rename_i he
    rw [isEventOp_iff] at he
    rcases decode_ok h with h | h | h | h | h | h | h | h <;> obtain ⟨ho, -, rfl⟩ := h <;> simp_all

/-- The four bits of OP, one by one. -/
theorem getLsbD_of_opField {w : Word} {k : Nat} (ho : (opField w).toNat = k) (i : Nat) (h : 12 ≤ i) :
    w.getLsbD i = k.testBit (i - 12) := by
  rw [← ho, BitVec.testBit_toNat, opField, BitVec.getLsbD_extractLsb', show 12 + (i - 12) = i by omega]
  by_cases hi : i - 12 < 4
  · simp [hi]
  · simp [hi, BitVec.getLsbD_of_ge w i (by omega)]

/-- A bit of the must-be-zero set, one by one (R76). -/
theorem getLsbD_of_mbz {w m : Word} (h : w &&& m = 0) (i : Nat) (hm : m.getLsbD i = true) : w.getLsbD i = false := by
  simpa [hm] using congrArg (fun v : Word => v.getLsbD i) h

end Sys2Proof
end

