-- ==== Sys2Proof/Laws/Step.lean ====
section
/-! SUPPORT. Inversion: everything a command, a Sequencer step and a step of the block can do, said once. -/

namespace Sys2Proof.Machine

/-- What a command word can do (R179): read, write one target in a window, close the window, or only record a fault. -/
theorem runCommand_cases {w : Word} {s t : State} (h : runCommand w s = .next t) :
    (∃ code, t = raiseFault code s) ∨
    (∃ v, t = respond v s) ∨
    (isWindow s.seq = true ∧
      ((∃ m tag, decode w = .ok (.wrma m) ∧ modeCode tag = m ∧ t = respond 0 { s with modeAdv := tag }) ∨
       (∃ m, decode w = .ok (.setf m) ∧ t = setFlags m s) ∨
       (∃ m, decode w = .ok (.clrf m) ∧ t = clearFlags m s) ∨
       (∃ m, decode w = .ok (.blink m) ∧ t = requestBlink m s) ∨
       (decode w = .ok .hdone ∧ t = closeWindow s))) := by
  rcases hd : decodePort w with r | i
  · rw [runCommand_error hd] at h
    cases h
    exact .inl ⟨_, rfl⟩
  · rw [runCommand_ok hd] at h
    have hw := decodePort_ok hd
    have gate : ∀ run : State → State, exec i s = .next (whenInWindow run s) →
        (∃ code, t = raiseFault code s) ∨ (isWindow s.seq = true ∧ t = run s) := by
      intro run he
      rw [he] at h
      cases h
      by_cases hq : isWindow s.seq = true
      · exact .inr ⟨hq, whenInWindow_of_window _ _ hq⟩
      · exact .inl ⟨_, whenInWindow_of_not_window _ _ (by simpa using hq)⟩
    cases i with
    | rd sel =>
      rw [exec_rd] at h
      cases h
      rcases readCommand_cases config sel s with ⟨v, -, hv⟩ | ⟨-, hv⟩
      · exact .inr (.inl ⟨v, hv⟩)
      · exact .inl ⟨_, hv⟩
    | wrma m =>
      rcases gate _ (exec_wrma m s) with hf | ⟨hq, ht⟩
      · exact .inl hf
      · rcases advertise_cases m s with ⟨tag, -, hc, ha⟩ | ⟨-, ha⟩
        · exact .inr (.inr ⟨hq, .inl ⟨m, tag, hw, hc, ht.trans ha⟩⟩)
        · exact .inl ⟨_, ht.trans ha⟩
    | setf m =>
      rcases gate _ (exec_setf m s) with hf | ⟨hq, ht⟩
      · exact .inl hf
      · exact .inr (.inr ⟨hq, .inr (.inl ⟨m, hw, ht⟩)⟩)
    | clrf m =>
      rcases gate _ (exec_clrf m s) with hf | ⟨hq, ht⟩
      · exact .inl hf
      · exact .inr (.inr ⟨hq, .inr (.inr (.inl ⟨m, hw, ht⟩))⟩)
    | blink m =>
      rcases gate _ (exec_blink m s) with hf | ⟨hq, ht⟩
      · exact .inl hf
      · exact .inr (.inr ⟨hq, .inr (.inr (.inr (.inl ⟨m, hw, ht⟩)))⟩)
    | hdone =>
      rcases gate _ (exec_hdone s) with hf | ⟨hq, ht⟩
      · exact .inl hf
      · exact .inr (.inr ⟨hq, .inr (.inr (.inr (.inr ⟨hw, ht⟩)))⟩)
    | tick => exact absurd rfl (decodePort_not_event hd).1
    | btn => exact absurd rfl (decodePort_not_event hd).2

/-- What a Sequencer step can do: the slot of its state (R120, R122, R127, R129 to R131, R155). -/
theorem sequencerStep_cases {c : Config} {s t : State} (h : sequencerStep c s = some t) :
    (s.seq = .idle ∧ workPending s = true ∧ t = gotoSeq .s1Mode s) ∨ (s.seq = .s1Mode ∧ t = modeSlot c s) ∨
    (s.seq = .s2Tick ∧ t = tickSlot s) ∨ (s.seq = .s3Blink ∧ t = blinkSlot c s) ∨ (s.seq = .s4Poll ∧ t = pollSlot s) ∨
    (s.seq = .s5Clear ∧ t = clearSlot s) ∨ (s.seq = .s6Render ∧ t = renderSlot s) := by
  unfold sequencerStep at h
  split at h <;> simp_all

/-- Where the Sequencer has no step (R11). -/
theorem sequencerStep_eq_none (c : Config) (s : State) :
    sequencerStep c s = none ↔
      (s.seq = .idle ∧ s.eventmask = 0 ∧ s.flagmask = 0) ∨ s.seq = .s1Init ∨ s.seq = .s2Call ∨ s.seq = .halt := by
  unfold sequencerStep
  cases s.seq <;> simp [workPending]

/-- S1_MODE under its guard (R122). -/
theorem modeSlot_of_due (c : Config) (s : State) (h : transitionDue s = true) :
    modeSlot c s =
      emit ([.showId c.deviceId, .beep] ++ (if c.hasInit s.modeAdv then [.onEnter s.modeAdv] else []))
        { s with
          mode := s.modeAdv
          modeAdv := .none
          flagmask := setBits s.flagmask flDisplayActive
          countdown := c.displayHold
          seq := if c.hasInit s.modeAdv then .s1Init else .s2Tick } := if_pos h

/-- S1_MODE without a transition due (R122, R126). -/
theorem modeSlot_of_not_due (c : Config) (s : State) (h : transitionDue s = false) : modeSlot c s = gotoSeq .s2Tick s :=
  if_neg (by simp [h])

theorem transitionDue_iff (s : State) : transitionDue s = true ↔ s.modeAdv ≠ .none ∧ s.modeAdv ≠ s.mode := by
  simp [transitionDue]

/-- Everything a step of the block can do (R11). -/
theorem step_cases {s t : State} (h : step s = .next t) :
    (s.inputs = [] ∧ t = runAlone config s) ∨
    (∃ rest, s.inputs = .pin .tick :: rest ∧ t = tick config { s with inputs := rest }) ∨
    (∃ rest, s.inputs = .pin .button :: rest ∧ t = btn config { s with inputs := rest }) ∨
    (∃ w rest, s.inputs = .command w :: rest ∧ runCommand w { s with inputs := rest } = .next t) ∨
    (∃ rest, s.inputs = .sequencer :: rest ∧ sequencerStep config { s with inputs := rest } = some t) ∨
    (∃ b rest, s.inputs = .reset b :: rest ∧ t = assertReset config b { s with inputs := rest }) := by
  unfold step at h
  split at h
  · cases h
    exact .inl ⟨by assumption, rfl⟩
  · rename_i p rest hi
    cases p <;> cases h
    · exact .inr (.inl ⟨rest, hi, rfl⟩)
    · exact .inr (.inr (.inl ⟨rest, hi, rfl⟩))
  · exact .inr (.inr (.inr (.inl ⟨_, _, by assumption, h⟩)))
  · refine .inr (.inr (.inr (.inr (.inl ⟨_, by assumption, ?_⟩))))
    unfold takeSequencerStep at h
    split at h
    · cases h; assumption
    · cases h
  · cases h
    exact .inr (.inr (.inr (.inr (.inr ⟨_, _, by assumption, rfl⟩))))

/-- The block alone: a Sequencer step, or nothing (R215). -/
theorem runAlone_cases (c : Config) (s : State) :
    sequencerStep c s = some (runAlone c s) ∨ (sequencerStep c s = none ∧ runAlone c s = s) := by
  unfold runAlone
  split <;> simp_all

theorem step_pin {s : State} {p : Pin} {rest : List Input} (h : s.inputs = .pin p :: rest) :
    step s = runPin p { s with inputs := rest } := by simp [step, h]

theorem step_command {s : State} {w : Word} {rest : List Input} (h : s.inputs = .command w :: rest) :
    step s = runCommand w { s with inputs := rest } := by simp [step, h]

theorem step_sequencer {s : State} {rest : List Input} (h : s.inputs = .sequencer :: rest) :
    step s = takeSequencerStep config { s with inputs := rest } := by simp [step, h]

theorem step_reset {s : State} {b : Byte} {rest : List Input} (h : s.inputs = .reset b :: rest) :
    step s = .next (assertReset config b { s with inputs := rest }) := by simp [step, h]

theorem step_alone {s : State} (h : s.inputs = []) : step s = .next (runAlone config s) := by simp [step, h]

end Sys2Proof.Machine
end

