-- ==== Sys2Proof/Laws/Frames.lean ====
section
/-! SUPPORT. What a command and a Sequencer step leave alone, the inversion of a step with the schedule already moved on, and the
unfolding of a run. -/

namespace Sys2Proof.Machine

/-- No command touches the time base, MODE, TS, LED, BATT, OUT or the schedule (R181). -/
theorem runCommand_frame {w : Word} {s t : State} (h : runCommand w s = .next t) :
    t.tickcnt = s.tickcnt ∧ t.countdown = s.countdown ∧ t.mode = s.mode ∧ t.ts = s.ts ∧ t.led = s.led ∧ t.batt = s.batt ∧
      t.out = s.out ∧ t.inputs = s.inputs := by
  rcases runCommand_cases h with ⟨c, rfl⟩ | ⟨v, rfl⟩ |
    ⟨-, ⟨m, tag, -, -, rfl⟩ | ⟨m, -, rfl⟩ | ⟨m, -, rfl⟩ | ⟨m, -, rfl⟩ | ⟨-, rfl⟩⟩ <;>
    exact ⟨rfl, rfl, rfl, rfl, rfl, rfl, rfl, rfl⟩

/-- No Sequencer step touches TICKCNT, FAULT, BATT, the responses or the schedule. -/
theorem sequencerStep_frame {c : Config} {s t : State} (h : sequencerStep c s = some t) :
    t.tickcnt = s.tickcnt ∧ t.fault = s.fault ∧ t.batt = s.batt ∧ t.resps = s.resps ∧ t.inputs = s.inputs := by
  rcases sequencerStep_cases h with ⟨-, -, rfl⟩ | ⟨-, rfl⟩ | ⟨-, rfl⟩ | ⟨-, rfl⟩ | ⟨-, rfl⟩ | ⟨-, rfl⟩ | ⟨-, rfl⟩
  · exact ⟨rfl, rfl, rfl, rfl, rfl⟩
  · unfold modeSlot; split <;> exact ⟨rfl, rfl, rfl, rfl, rfl⟩
  · unfold tickSlot; split <;> exact ⟨rfl, rfl, rfl, rfl, rfl⟩
  all_goals exact ⟨rfl, rfl, rfl, rfl, rfl⟩

/-- Everything a step can do, from `p`, which is `s` with the schedule moved on: the wait, a pin, a command, a Sequencer step (named
or alone), or a reset. -/
theorem step_inversion {s t : State} (h : step s = .next t) :
    ∃ p : State, (∃ r, p = { s with inputs := r }) ∧
      ((s.inputs = [] ∧ sequencerStep config s = none ∧ t = p) ∨
       (pinNext s .tick ∧ t = tick config p) ∨
       (pinNext s .button ∧ t = btn config p) ∨
       (∃ w, commandNext s w ∧ runCommand w p = .next t) ∨
       (sequencerNext s = true ∧ sequencerStep config p = some t) ∨
       (resetNext s = true ∧ ∃ b rest, s.inputs = .reset b :: rest ∧ t = assertReset config b p)) := by
  rcases step_cases h with ⟨hi, rfl⟩ | ⟨rest, hi, ht⟩ | ⟨rest, hi, ht⟩ | ⟨w, rest, hi, ht⟩ | ⟨rest, hi, ht⟩ | ⟨b, rest, hi, ht⟩
  · refine ⟨s, ⟨s.inputs, rfl⟩, ?_⟩
    rcases runAlone_cases config s with h | ⟨hn, h⟩
    · exact .inr (.inr (.inr (.inr (.inl ⟨by simp [sequencerNext, hi], h⟩))))
    · exact .inl ⟨hi, hn, h⟩
  · exact ⟨_, ⟨rest, rfl⟩, .inr (.inl ⟨⟨rest, hi⟩, ht⟩)⟩
  · exact ⟨_, ⟨rest, rfl⟩, .inr (.inr (.inl ⟨⟨rest, hi⟩, ht⟩))⟩
  · exact ⟨_, ⟨rest, rfl⟩, .inr (.inr (.inr (.inl ⟨w, ⟨rest, hi⟩, ht⟩)))⟩
  · exact ⟨_, ⟨rest, rfl⟩, .inr (.inr (.inr (.inr (.inl ⟨by simp [sequencerNext, hi], ht⟩))))⟩
  · exact ⟨_, ⟨rest, rfl⟩, .inr (.inr (.inr (.inr (.inr ⟨by simp [resetNext, hi], b, rest, hi, ht⟩))))⟩

theorem run_zero (s : State) : core.run 0 s = .next s := rfl

/-- A run of one more step, when that step answers a next state. -/
theorem run_succ_of_next {k : Nat} {s t : State} (h : step s = .next t) : core.run (k + 1) s = core.run k t := by
  have hs : core.step s = .next t := h
  simp only [Host.Core.run, hs]

/-- Putting two runs together. -/
theorem run_add {j k : Nat} {s t : State} (h : core.run j s = .next t) : core.run (j + k) s = core.run k t := by
  induction j generalizing s with
  | zero => cases h; rw [Nat.zero_add]
  | succ j ih =>
    rw [Nat.add_right_comm]
    cases hs : core.step s with
    | next u =>
      rw [run_succ_of_next hs] at h ⊢
      exact ih h
    | fault r => simp [Host.Core.run, hs] at h
    | refused r => simp [Host.Core.run, hs] at h

theorem step_tick {s : State} {rest : List Input} (h : s.inputs = .pin .tick :: rest) :
    step s = .next (tick config { s with inputs := rest }) := by rw [step_pin h]; rfl

theorem step_button {s : State} {rest : List Input} (h : s.inputs = .pin .button :: rest) :
    step s = .next (btn config { s with inputs := rest }) := by rw [step_pin h]; rfl

/-- A scheduled Sequencer step that there is. -/
theorem step_sequencer_of_some {s t : State} {rest : List Input} (h : s.inputs = .sequencer :: rest)
    (ht : sequencerStep config { s with inputs := rest } = some t) : step s = .next t := by
  rw [step_sequencer h, takeSequencerStep, ht]

/-- A step takes the schedule's first entry away and leaves the rest. -/
theorem step_inputs {s t : State} (h : step s = .next t) : t.inputs = s.inputs.tail := by
  rcases step_cases h with ⟨hi, ht⟩ | ⟨rest, hi, ht⟩ | ⟨rest, hi, ht⟩ | ⟨w, rest, hi, ht⟩ | ⟨rest, hi, ht⟩ | ⟨b, rest, hi, ht⟩
  · rw [ht, hi]
    rcases runAlone_cases config s with h | ⟨-, h⟩
    · rw [(sequencerStep_frame h).2.2.2.2, hi]; rfl
    · rw [h, hi]; rfl
  · simp [ht, hi]
  · simp [ht, hi]
  · rw [(runCommand_frame ht).2.2.2.2.2.2.2, hi]; rfl
  · rw [(sequencerStep_frame ht).2.2.2.2, hi]; rfl
  · simp [ht, hi]

/-- A run of one more step, taken apart. -/
theorem run_succ_inversion {n : Nat} {s t : State} (h : core.run (n + 1) s = .next t) :
    ∃ u, step s = .next u ∧ core.run n u = .next t := by
  cases hs : step s with
  | next u => exact ⟨u, rfl, by rw [run_succ_of_next hs] at h; exact h⟩
  | fault r => have hs' : core.step s = .fault r := hs; simp [Host.Core.run, hs'] at h
  | refused r => have hs' : core.step s = .refused r := hs; simp [Host.Core.run, hs'] at h

/-- No Sequencer step leads into HALT (R135). -/
theorem sequencerStep_not_halt {c : Config} {s t : State} (h : sequencerStep c s = some t) : t.seq ≠ .halt := by
  rcases sequencerStep_cases h with ⟨-, -, rfl⟩ | ⟨-, rfl⟩ | ⟨-, rfl⟩ | ⟨-, rfl⟩ | ⟨-, rfl⟩ | ⟨-, rfl⟩ | ⟨-, rfl⟩
  · simp
  · unfold modeSlot
    split
    · simp only [emit_seq]; split <;> simp
    · simp
  · unfold tickSlot; split <;> simp
  all_goals simp [blinkSlot, pollSlot, clearSlot, renderSlot]

end Sys2Proof.Machine
end

