-- ==== Sys2Proof/Laws/Masks.lean ====
section
/-! SUPPORT. The masks bit by bit, the countdown as a number, the distance and the comparator as arithmetic. -/

namespace Sys2Proof.Machine

@[simp] theorem getLsbD_setBits (m bits : Byte) (i : Nat) : (setBits m bits).getLsbD i = (m.getLsbD i || bits.getLsbD i) := by
  simp [setBits]

@[simp] theorem getLsbD_clearBits (m bits : Byte) (i : Nat) : (clearBits m bits).getLsbD i = (m.getLsbD i && !bits.getLsbD i) := by
  by_cases h : i < 8
  · simp [clearBits, h]
  · simp [clearBits, BitVec.getLsbD_of_ge m i (by omega)]

@[simp] theorem hasBit_eq (m : Byte) (i : Nat) : hasBit m i = m.getLsbD i := rfl

@[simp] theorem blinkRequested_eq (m : Byte) (k : Colour) : blinkRequested m k = m.getLsbD (3 + k.index) := rfl

/-- Bit 0 alone. -/
theorem getLsbD_bit0 (i : Nat) : (0b00000001#8).getLsbD i = decide (i = 0) := by
  by_cases h : i < 8
  · interval_cases i <;> rfl
  · rw [BitVec.getLsbD_of_ge _ i (by omega)]; simp; omega

/-- Bit 1 alone. -/
theorem getLsbD_bit1 (i : Nat) : (0b00000010#8).getLsbD i = decide (i = 1) := by
  by_cases h : i < 8
  · interval_cases i <;> rfl
  · rw [BitVec.getLsbD_of_ge _ i (by omega)]; simp; omega

/-- Bit 2 alone. -/
theorem getLsbD_bit2 (i : Nat) : (0b00000100#8).getLsbD i = decide (i = 2) := by
  by_cases h : i < 8
  · interval_cases i <;> rfl
  · rw [BitVec.getLsbD_of_ge _ i (by omega)]; simp; omega

/-- SHORT_POLL's test is `TICKCNT mod 16 = 0` (R103). -/
theorem shortPollDue_eq (t : Byte) : shortPollDue t = decide (t.toNat % 16 = 0) := by
  simp [shortPollDue, ← BitVec.toNat_inj, BitVec.extractLsb'_toNat]

/-- The bits a TICK sets, one by one (R100). -/
theorem getLsbD_tickBits (c : Config) (t : Byte) (i : Nat) :
    (tickBits c t).getLsbD i =
      (decide (i = 0) || (decide (i = 1) && decide (t.toNat % 16 = 0)) || (decide (i = 2) && decide (t = c.longPollMatch))) := by
  simp only [tickBits, shortPollDue_eq, evTick, evShortPoll, evLongPoll, BitVec.getLsbD_or, getLsbD_bit0]
  congr 1
  · congr 1
    split <;> simp_all [getLsbD_bit1]
  · split <;> simp_all [getLsbD_bit2]

/-- SETF's and CLRF's mask, bit by bit (R72). -/
@[simp] theorem getLsbD_flagOperand (m : BitVec 3) (i : Nat) : (flagOperand m).getLsbD i = m.getLsbD i := by
  by_cases h : i < 8
  · simp [flagOperand, h]
  · simp [flagOperand, h, BitVec.getLsbD_of_ge m i (by omega)]

/-- BLINK's mask, bit by bit (R72): cmask bit c is bit 3 + c. -/
@[simp] theorem getLsbD_colourOperand (m : BitVec 3) (i : Nat) :
    (colourOperand m).getLsbD i = (decide (3 ≤ i) && m.getLsbD (i - 3)) := by
  by_cases h : i < 8
  · by_cases h3 : 3 ≤ i
    · simp [colourOperand, h, h3, show ¬ i < 3 by omega]
    · simp [colourOperand, h, h3, show i < 3 by omega]
  · simp [colourOperand, h, BitVec.getLsbD_of_ge m (i - 3) (by omega)]

/-- One tick of COUNTDOWN as a number (R102). -/
theorem countdownTick_toNat (n : Word) : (countdownTick n).toNat = if 1 < n.toNat then n.toNat - 1 else n.toNat := by
  unfold countdownTick
  split
  · rw [BitVec.toNat_sub_of_le (by simp [BitVec.le_def]; omega)]
    simp
  · rfl

/-- The forward delta as a number (R150). -/
theorem fwd_toNat (t s : Byte) : (fwd t s).toNat = (t.toNat + (256 - s.toNat)) % 256 := by
  unfold fwd
  rw [BitVec.toNat_sub]
  congr 1
  omega

/-- The distance as a number (R150). -/
theorem tickDist_eq (t s : Byte) :
    tickDist t s =
      if (t.toNat + (256 - s.toNat)) % 256 ≤ 128 then (t.toNat + (256 - s.toNat)) % 256
      else 256 - (t.toNat + (256 - s.toNat)) % 256 := by
  unfold tickDist
  rw [fwd_toNat]

/-- The comparator as an inequality (R153). -/
@[simp] theorem expired_eq_true (c : Config) (t s : Byte) : expired c t s = true ↔ c.blinkDuration.toNat < tickDist t s := by
  simp [expired]

/-- A fresh stamp never counts as expired (R155). -/
@[simp] theorem expired_self (c : Config) (t : Byte) : expired c t t = false := by
  simp [expired, tickDist, fwd]

/-- A requested colour ends S3_BLINK lit (R155). -/
theorem latchAfter_of_requested (c : Config) (s : State) (k : Colour) (h : blinkRequested s.eventmask k = true) :
    latchAfter c s k = true := by
  simp only [latchAfter, stampAfter, h]; simp

/-- A colour that is not requested stays as it is until its stamp expires (R155, R156). -/
theorem latchAfter_of_not_requested (c : Config) (s : State) (k : Colour) (h : blinkRequested s.eventmask k = false) :
    latchAfter c s k = (s.led.get k && !expired c s.tickcnt (s.ts.get k)) := by
  simp only [latchAfter, stampAfter, h]; simp

end Sys2Proof.Machine
end

