-- ==== Sys2Proof/Laws/PerInstr.lean ====
section
/-! SUPPORT. A law of every instruction as syntax: its word fits its row of 30_encoding.md R73, and its operand is read back from it. -/

namespace Sys2Proof.Laws.FitsItsRow

/-- The word of the instruction agrees with the row's match under the row's mask, and its operand field holds the operand (R72, R73). -/
def Statement : Instr → Prop
  | .rd sel => encode (.rd sel) &&& 0xF0FF#16 = 0x1000#16 ∧ selField (encode (.rd sel)) = sel
  | .wrma m => encode (.wrma m) &&& 0xFFF8#16 = 0x2000#16 ∧ valField (encode (.wrma m)) = m
  | .setf fmask => encode (.setf fmask) &&& 0xFFF8#16 = 0x3000#16 ∧ valField (encode (.setf fmask)) = fmask
  | .clrf fmask => encode (.clrf fmask) &&& 0xFFF8#16 = 0x4000#16 ∧ valField (encode (.clrf fmask)) = fmask
  | .blink cmask => encode (.blink cmask) &&& 0xFFF8#16 = 0x5000#16 ∧ valField (encode (.blink cmask)) = cmask
  | .hdone => encode .hdone = 0x6000#16
  | .tick => encode .tick = 0x8000#16
  | .btn => encode .btn = 0x9000#16

theorem rd (sel : BitVec 4) : Statement (.rd sel) := by unfold Statement; revert sel; decide
theorem wrma (m : BitVec 3) : Statement (.wrma m) := by unfold Statement; revert m; decide
theorem setf (fmask : BitVec 3) : Statement (.setf fmask) := by unfold Statement; revert fmask; decide
theorem clrf (fmask : BitVec 3) : Statement (.clrf fmask) := by unfold Statement; revert fmask; decide
theorem blink (cmask : BitVec 3) : Statement (.blink cmask) := by unfold Statement; revert cmask; decide
theorem hdone : Statement .hdone := by unfold Statement; decide
theorem tick : Statement .tick := by unfold Statement; decide
theorem btn : Statement .btn := by unfold Statement; decide

end Sys2Proof.Laws.FitsItsRow
end

