-- ==== Sys2Proof/Tests/Slice0.lean ====
section
/-! SUPPORT. Tests of single steps against 95_test_vectors.md and 30_encoding.md, the smoke tests of WellFormed, and for each statement
with hypotheses a witness that meets them. -/

namespace Sys2Proof.Tests

open Sys2Proof Sys2Proof.Machine

/-- The parameters of 95_test_vectors.md; the values of the OPEN ones are test choices. -/
def testConfig : Config where
  blinkDuration := 8
  displayHold := 1000
  longPollMatch := 0x80
  deviceId := 0x2A
  bootModeAdv := .gameA
  hasInitGameA := true
  hasInitGameAVariant := false
  hasInitGameB := false
  hasInitGameC := false
  lowbatEnable := false
  lowbatThreshold := 0x20

/-- Every register 0, SEQ = `q`, the schedule `inputs`. -/
def start (q : Seq) (inputs : List Input) : State where
  tickcnt := 0
  countdown := 0
  eventmask := 0
  flagmask := 0
  mode := .none
  modeAdv := .none
  ts := ⟨0, 0, 0⟩
  led := ⟨false, false, false⟩
  fault := none
  batt := 0
  seq := q
  out := []
  resps := []
  inputs := inputs

/-! ## Well-formedness: one ill-formed term for each check (R77) -/

theorem test_wellFormed_rd_14 : (Instr.rd 14).wellFormed = false := by decide
theorem test_wellFormed_rd_15 : (Instr.rd 15).wellFormed = false := by decide
theorem test_wellFormed_rd_13 : (Instr.rd 13).wellFormed = true := by decide
theorem test_wellFormed_wrma_5 : (Instr.wrma 5).wellFormed = false := by decide
theorem test_wellFormed_wrma_7 : (Instr.wrma 7).wellFormed = false := by decide
theorem test_wellFormed_wrma_4 : (Instr.wrma 4).wellFormed = true := by decide

/-! ## Decoding: words written out bit by bit from the patterns of R73 -/

theorem test_decode_rd : decode 0b0001100100000000#16 = .ok (.rd 9) := by rfl
theorem test_decode_wrma : decode 0b0010000000000011#16 = .ok (.wrma 3) := by rfl
theorem test_decode_setf : decode 0b0011000000000101#16 = .ok (.setf 0b101) := by rfl
theorem test_decode_clrf : decode 0b0100000000000110#16 = .ok (.clrf 0b110) := by rfl
theorem test_decode_blink : decode 0b0101000000000100#16 = .ok (.blink 0b100) := by rfl
theorem test_decode_hdone : decode 0b0110000000000000#16 = .ok .hdone := by rfl
theorem test_decode_tick : decode 0b1000000000000000#16 = .ok .tick := by rfl
theorem test_decode_btn : decode 0b1001000000000000#16 = .ok .btn := by rfl
theorem test_decode_all_zero : decode 0b0000000000000000#16 = .error .illegalOp := by rfl
theorem test_decode_mbz : decode 0b0010000000001000#16 = .error .rsvdBits := by rfl
theorem test_decode_table_word : decodeTableWord 16 0x5005 = some (.blink 5) := by rfl

/-! ## Assembly (R79): names, masks, comments, and what cannot be assembled -/

theorem test_assemble_names : assemble "BLINK   RED | GREEN             ; 0x5005" = some 0x5005 := by decide
theorem test_assemble_numerals : [assemble "RD 14", assemble "WRMA 5", assemble "SETF 0"] = [some 0x1E00, some 0x2005, some 0x3000] := by
  decide
theorem test_assemble_refused :
    [assemble "RD 16", assemble "WRMA 8", assemble "CLRF RED", assemble "HDONE 0", assemble "rd LED", assemble "SETF 1|2"] =
      [none, none, none, none, none, none] := by decide
theorem test_parse_slot : parseLine "@S3_BLINK                 ; no request" = some (.slot .s3Blink) := by decide

/-! ## The producers (L2.1, L2.2) -/

/-- T1. -/
theorem test_tick_wraps :
    let t := tick testConfig { start .idle [] with tickcnt := 0xFF, countdown := 5 }
    t.tickcnt = 0 ∧ t.countdown = 4 ∧ t.eventmask = 0b011 := by decide
/-- T5. -/
theorem test_tick_match :
    let t := tick testConfig { start .idle [] with tickcnt := 0x7F, countdown := 2 }
    t.tickcnt = 0x80 ∧ t.countdown = 1 ∧ t.eventmask = 0b111 := by decide
/-- B2. -/
theorem test_btn_reloads :
    let t := btn testConfig { start .idle [] with flagmask := 0b010, countdown := 3 }
    t.flagmask = 0b111 ∧ t.countdown = 1000 ∧ t.eventmask = 0 := by decide
/-- B7. -/
theorem test_btn_halt : btn testConfig (start .halt []) = start .halt [] := by decide

/-! ## The comparator and the slots (L2.3 to L2.6) -/

/-- L2.3: just inside and just outside the band, on both sides, and across the wrap. -/
theorem test_comparator :
    [expired testConfig 3 250, expired testConfig 3 251, expired testConfig 9 0, expired testConfig 8 0, expired testConfig 247 0,
      expired testConfig 248 0] = [true, false, true, false, true, false] := by decide
/-- S3-6. -/
theorem test_blink_turns_off :
    let t := blinkSlot testConfig { start .s3Blink [] with tickcnt := 3, led := ⟨true, false, false⟩, ts := ⟨250, 0, 0⟩ }
    t.led = ⟨false, false, false⟩ ∧ t.ts = ⟨250, 0, 0⟩ ∧
      t.out = [.setIndicator .red false, .setIndicator .yellow false, .setIndicator .green false] := by decide
/-- S3-10. -/
theorem test_blink_mixed :
    let t := blinkSlot testConfig
      { start .s3Blink [] with tickcnt := 60, eventmask := 0b010000, led := ⟨true, false, true⟩, ts := ⟨40, 0, 55⟩ }
    t.led = ⟨false, true, true⟩ ∧ t.ts = ⟨40, 60, 55⟩ ∧ t.eventmask = 0b010000 ∧ t.seq = .s4Poll := by decide
/-- M1. -/
theorem test_mode_commits :
    let t := modeSlot testConfig { start .s1Mode [] with modeAdv := .gameA }
    t.mode = .gameA ∧ t.modeAdv = .none ∧ t.flagmask = 0b001 ∧ t.countdown = 1000 ∧ t.seq = .s1Init ∧
      t.out = [.showId 0x2A, .beep, .onEnter .gameA] := by decide
/-- M2. -/
theorem test_mode_without_initializer :
    let t := modeSlot testConfig { start .s1Mode [] with mode := .gameA, modeAdv := .gameC, flagmask := 0b100 }
    t.mode = .gameC ∧ t.flagmask = 0b101 ∧ t.seq = .s2Tick ∧ t.out = [.showId 0x2A, .beep] := by decide
/-- K1. -/
theorem test_tick_slot_dispatches :
    let t := tickSlot { start .s2Tick [] with eventmask := 0b001, mode := .gameB }
    t.seq = .s2Call ∧ t.out = [.processTick .gameB] := by decide
/-- K2. -/
theorem test_tick_slot_none : (tickSlot { start .s2Tick [] with eventmask := 0b001 }).seq = .s3Blink := by decide
/-- P-c. -/
theorem test_poll_both : (pollSlot { start .s4Poll [] with eventmask := 0b111 }).out = [.shortPoll, .longPoll] := by decide
/-- P-d. -/
theorem test_poll_none : (pollSlot { start .s4Poll [] with eventmask := 0b101000 }).out = [] := by decide
/-- C-a. -/
theorem test_clear :
    let t := clearSlot { start .s5Clear [] with eventmask := 0b101001, flagmask := 0b101 }
    t.eventmask = 0 ∧ t.flagmask = 0b101 ∧ t.seq = .s6Render := by decide
/-- R-a. -/
theorem test_render_digits :
    (renderSlot { start .s6Render [] with flagmask := 0b001, led := ⟨true, false, false⟩ }).out = [.renderDigits] := by decide
/-- R-b. -/
theorem test_render_plain :
    (renderSlot { start .s6Render [] with flagmask := 0b100, led := ⟨false, true, true⟩ }).out = [.renderPlain false true true] := by
  decide

/-! ## The commands (L2.7), each as one step with the word on the port -/

/-- X3. -/
theorem test_rd_led :
    step { start .idle [.command 0x1900] with led := ⟨true, false, true⟩ } =
      .next { start .idle [] with led := ⟨true, false, true⟩, resps := [.value 0x0005] } := by rfl
/-- X8. -/
theorem test_rd_reserved :
    step (start .idle [.command 0x1E00]) = .next { start .idle [] with fault := some .badSel, resps := [.fault .badSel] } := by rfl
/-- X10. -/
theorem test_wrma :
    step (start .s2Call [.command 0x2003]) = .next { start .s2Call [] with modeAdv := .gameB, resps := [.value 0] } := by rfl
/-- X14: WINDOW is checked before BAD_MODE. -/
theorem test_wrma_window_first :
    step (start .idle [.command 0x2005]) = .next { start .idle [] with fault := some .window, resps := [.fault .window] } := by rfl
/-- X19. -/
theorem test_setf :
    step (start .s1Init [.command 0x3007]) = .next { start .s1Init [] with flagmask := 0b111, resps := [.value 0] } := by rfl
/-- X18. -/
theorem test_setf_zero :
    step { start .s2Call [.command 0x3000] with flagmask := 0b100 } =
      .next { start .s2Call [] with flagmask := 0b100, resps := [.value 0] } := by rfl
/-- X20. -/
theorem test_clrf :
    step { start .s2Call [.command 0x4004] with flagmask := 0b101 } =
      .next { start .s2Call [] with flagmask := 0b001, resps := [.value 0] } := by rfl
/-- X22. -/
theorem test_blink :
    step { start .s2Call [.command 0x5005] with eventmask := 0b000001 } =
      .next { start .s2Call [] with eventmask := 0b101001, resps := [.value 0] } := by rfl
/-- X25. -/
theorem test_hdone : step (start .s2Call [.command 0x6000]) = .next { start .s3Blink [] with resps := [.value 0] } := by rfl
/-- X27: a faulting command leaves the window open. -/
theorem test_hdone_reserved_bits :
    step (start .s2Call [.command 0x6800]) = .next { start .s2Call [] with fault := some .rsvdBits, resps := [.fault .rsvdBits] } := by rfl
/-- X13, R203's example. -/
theorem test_reserved_bits_first :
    step (start .idle [.command 0x2105]) = .next { start .idle [] with fault := some .rsvdBits, resps := [.fault .rsvdBits] } := by rfl
/-- R178: the port cannot forge a TICK. The response carries this command's code, FAULT keeps the first (R204). -/
theorem test_event_word_on_port :
    step { start .idle [.command 0x8000] with fault := some .badMode } =
      .next { start .idle [] with fault := some .badMode, resps := [.fault .illegalOp] } := by rfl

/-! ## Reset (L2.8) and the host's two questions -/

/-- Z2, Z3: the comparison of the low-battery check is strict. -/
theorem test_low_battery :
    (assertReset { testConfig with lowbatEnable := true } 0x10 (start .s2Call [])).seq = .halt ∧
      (assertReset { testConfig with lowbatEnable := true } 0x20 (start .s2Call [])).seq = .idle := by decide
/-- A command word and an input-event word each run as the first step after reset. -/
theorem test_first_step :
    (∃ t, step (State.reset.withFetchWord 16 0x1B00) = .next t ∧ t.resps = [.value 0]) ∧
      step (State.reset.withFetchWord 16 0x8000) = exec .tick State.reset := ⟨⟨_, rfl, rfl⟩, rfl⟩

/-! ## Witnesses: a state that meets the hypotheses of each statement that has any -/

theorem witness_EncodeDecodeIdentity : decode 0x2003#16 = .ok (.wrma 3) := rfl
theorem witness_PortFollowsDecodeProcedure :
    (start .idle [.command 0x2105]).inputs = .command 0x2105#16 :: [] ∧ (start .idle [.command 0x2105]).seq = .idle := ⟨rfl, rfl⟩
theorem witness_PortRejectsReservedAndEventOpcodes :
    (start .s2Call [.command 0x9FFF]).inputs = .command 0x9FFF#16 :: [] ∧
      (0x9FFF#16 >>> 12).toNat ∈ [0x0, 0x7, 0x8, 0x9, 0xA, 0xB, 0xC, 0xD, 0xE, 0xF] := ⟨rfl, by decide⟩
theorem witness_StepRunsDecodedOperation :
    ((start .s1Init [.command 0x6000]).inputs = .command 0x6000#16 :: [] ∧ decodePort 0x6000#16 = .ok .hdone) ∧
      (start .idle [.pin .tick]).inputs = .pin .tick :: [] ∧ (start .idle [.pin .button]).inputs = .pin .button :: [] :=
  ⟨⟨rfl, rfl⟩, rfl, rfl⟩
theorem witness_AnyEnabledStepMayComeNext : Input.reset 0 ≠ .sequencer := by decide
theorem witness_TickEffect : (start .idle []).seq ≠ .halt ∧ (start .halt []).seq = .halt := by decide
theorem witness_TickCounterLaw :
    ((start .s2Call [.command 0x1000, .pin .tick]).seq ≠ .halt ∧
      (∀ b, Input.reset b ∉ (start .s2Call [.command 0x1000, .pin .tick]).inputs.take 2) ∧
      ∃ t, core.run 2 (start .s2Call [.command 0x1000, .pin .tick]) = .next t) ∧
    (∃ t, exec .tick (start .halt []) = .next t) ∧
    ∃ t, step (start .s2Call [.pin .tick]) = .next t ∧ t.tickcnt ≠ (start .s2Call [.pin .tick]).tickcnt :=
  ⟨⟨by decide, by simp [start], _, rfl⟩, ⟨_, rfl⟩, _, rfl, by decide⟩
theorem witness_CountdownLaw :
    (let s : State := { start .s1Mode [.pin .tick] with countdown := 1 }
     s.seq ≠ .halt ∧ (∀ b, Input.reset b ∉ s.inputs.take 1) ∧ Input.pin .button ∉ s.inputs.take 1 ∧
       (∀ (k : Nat) (u : State), k < 1 → core.run k s = .next u →
         ¬(u.seq = .s1Mode ∧ sequencerNext u = true ∧ u.modeAdv ≠ .none ∧ u.modeAdv ≠ u.mode)) ∧
       (∃ t, core.run 1 s = .next t) ∧ 1 ≤ s.countdown.toNat) ∧
    ∃ t, step (start .idle [.command 0]) = .next t ∧ t.countdown = 0 := by
  refine ⟨⟨by decide, by simp [start], by decide, ?_, ⟨_, rfl⟩, by decide⟩, _, rfl, by decide⟩
  intro k u hk hu
  obtain rfl : k = 0 := by omega
  cases hu
  decide
theorem witness_PollEventsArePeriodic :
    (start .idle (List.replicate 256 (.pin .tick) ++ [])).seq ≠ .halt ∧
      (start .s1Init (List.replicate 16 (.pin .tick) ++ [])).seq ≠ .halt := ⟨nofun, nofun⟩
theorem witness_BtnEffect : (start .s1Init []).seq ≠ .halt ∧ (start .halt []).seq = .halt := by decide
theorem witness_RepeatedButtonEdges :
    (start .idle ([.pin .button, .pin .tick] ++ .pin .button :: (List.replicate 2 (.pin .tick) ++ []))).seq ≠ .halt ∧
      (start .idle ([.pin .button, .pin .tick] ++ .pin .button :: (List.replicate 2 (.pin .tick) ++ []))).inputs =
        [Pin.button, .tick].map .pin ++ .pin .button :: (List.replicate 2 (.pin .tick) ++ []) := ⟨by decide, rfl⟩
theorem witness_HaltLeftOnlyByReset :
    (start .halt []).seq = .halt ∧
      ∃ t, step (start .halt [.command 0x6000]) = .next t ∧ resetNext (start .halt [.command 0x6000]) = false ∧ t.seq = .halt :=
  ⟨rfl, _, rfl, rfl, rfl⟩
theorem witness_ProducersOnlySetAndWake :
    (∃ t, exec .tick { start .idle [] with eventmask := 0b001000, flagmask := 0b010 } = .next t) ∧
      (∃ t, exec .btn { start .idle [] with eventmask := 0b001000, flagmask := 0b010 } = .next t) := ⟨⟨_, rfl⟩, _, rfl⟩
theorem witness_TickButtonOrderMatters :
    ∃ a b c d, (start .idle []).seq ≠ .halt ∧ exec .tick (start .idle []) = .next a ∧ exec .btn a = .next b ∧
      exec .btn (start .idle []) = .next c ∧ exec .tick c = .next d := ⟨_, _, _, _, by decide, rfl, rfl, rfl, rfl⟩
theorem witness_ReadSelectMap :
    (start .idle [.command 0x1001]).inputs = .command 0x1001#16 :: [] ∧ (0x1001#16 >>> 12).toNat = 1 ∧
      0x1001#16 &&& 0x00FF#16 ≠ 0 := ⟨rfl, by decide⟩
theorem witness_ReadsHaveNoSideEffect :
    (13#4).toNat < 14 ∧ ∃ t u, exec (.rd 13) (start .idle []) = .next t ∧ exec (.rd 13) t = .next u := ⟨by decide, _, _, rfl, rfl⟩
theorem witness_WrmaEffect :
    ((start .idle [.command 0x2008]).inputs = .command 0x2008#16 :: [] ∧ (0x2008#16 >>> 12).toNat = 2 ∧
      0x2008#16 &&& 0x0FF8#16 ≠ 0) ∧
    (isWindow .s1Init = true ∧ (4#3).toNat < 5) ∧ (isWindow .s2Call = true ∧ 5 ≤ (5#3).toNat) ∧ isWindow .idle = false :=
  ⟨⟨rfl, by decide⟩, by decide⟩
theorem witness_SetfEffect :
    ((start .idle [.command 0x3800]).inputs = .command 0x3800#16 :: [] ∧ (0x3800#16 >>> 12).toNat = 3 ∧
      0x3800#16 &&& 0x0FF8#16 ≠ 0) ∧ isWindow .s1Init = true ∧ isWindow .halt = false := ⟨⟨rfl, by decide⟩, by decide⟩
theorem witness_ClrfEffect :
    ((start .idle [.command 0x4008]).inputs = .command 0x4008#16 :: [] ∧ (0x4008#16 >>> 12).toNat = 4 ∧
      0x4008#16 &&& 0x0FF8#16 ≠ 0) ∧ isWindow .s2Call = true ∧ isWindow .s1Mode = false := ⟨⟨rfl, by decide⟩, by decide⟩
theorem witness_BlinkEffect :
    ((start .idle [.command 0x5080]).inputs = .command 0x5080#16 :: [] ∧ (0x5080#16 >>> 12).toNat = 5 ∧
      0x5080#16 &&& 0x0FF8#16 ≠ 0) ∧ isWindow .s2Call = true ∧ isWindow .s3Blink = false := ⟨⟨rfl, by decide⟩, by decide⟩
theorem witness_HdoneEffect :
    ((start .idle [.command 0x6001]).inputs = .command 0x6001#16 :: [] ∧ (0x6001#16 >>> 12).toNat = 6 ∧
      0x6001#16 &&& 0x0FFF#16 ≠ 0) ∧ (start .s1Init []).seq = .s1Init ∧ (start .s2Call []).seq = .s2Call ∧
      (start .s2Tick []).seq ≠ .s1Init ∧ (start .s2Tick []).seq ≠ .s2Call := ⟨⟨rfl, by decide⟩, by decide⟩
theorem witness_MutatingCommandsNeedWindow :
    (start .idle []).seq ≠ .s1Init ∧ (start .idle []).seq ≠ .s2Call ∧
      ∃ t, exec (.rd 15) (start .idle []) = .next t := ⟨by decide, by decide, _, rfl⟩
theorem witness_FaultingCommandOnlyRecords :
    ∃ t, step (start .s2Call [.command 0x2005]) = .next t ∧
      t.resps = (start .s2Call [.command 0x2005]).resps ++ [.fault .badMode] := ⟨_, rfl, rfl⟩
theorem witness_FaultStickyUntilReset :
    (∃ t, step { start .idle [.command 0] with fault := some .badMode } = .next t ∧
      resetNext { start .idle [.command 0] with fault := some .badMode } = false) ∧
    ∃ t, step (start .idle [.command 0x6000]) = .next t ∧ (start .idle [.command 0x6000]).fault = none ∧ t.fault = some .window :=
  ⟨⟨_, rfl, rfl⟩, _, rfl, rfl, rfl⟩
theorem witness_CommandsCannotReachOtherState :
    ∃ t, step (start .s2Call [.command 0x6000]) = .next t ∧ t.seq ≠ (start .s2Call [.command 0x6000]).seq :=
  ⟨_, rfl, by decide⟩
theorem witness_RepeatedCommandsIdempotent :
    ∃ t u, exec (.blink 5) (start .s1Init []) = .next t ∧ exec (.blink 5) t = .next u := ⟨_, _, rfl, rfl⟩
theorem witness_IdleWaitsForWork :
    ({ start .idle [.sequencer] with flagmask := 0b010 } : State).flagmask ≠ 0 ∧
      ((start .idle ([0x6000#16, 0#16].map .command)).seq = .idle ∧ (start .idle []).eventmask = 0 ∧ (start .idle []).flagmask = 0) :=
  by decide
theorem witness_ModeSlotCommits :
    (let s : State := { start .s1Mode [.sequencer] with mode := .gameC, modeAdv := .gameA }
     s.seq = .s1Mode ∧ s.modeAdv ≠ .none ∧ s.modeAdv ≠ s.mode) ∧
    (let s : State := { start .s1Mode [.sequencer] with mode := .gameC, modeAdv := .gameC }
     s.seq = .s1Mode ∧ (s.modeAdv = .none ∨ s.modeAdv = s.mode)) := by decide
theorem witness_ModeChangesOnlyInSlotOne :
    let s : State := { start .s1Mode [.sequencer] with mode := .gameB, modeAdv := .gameA }
    ∃ t, step s = .next t ∧ resetNext s = false ∧ t.mode ≠ s.mode ∧ s.mode ≠ .none ∧ s.seq = .s1Mode ∧ sequencerNext s = true ∧
      s.modeAdv ≠ .none ∧ s.modeAdv ≠ s.mode := ⟨_, rfl, rfl, by decide⟩
theorem witness_StaleAdvertisementNeverFires :
    let s : State := { start .s1Mode [.sequencer] with mode := .gameB, modeAdv := .gameB }
    ∃ t, step s = .next t ∧ resetNext s = false ∧ s.modeAdv = s.mode ∧ s.mode ≠ .none ∧
      ∀ w, commandNext s w → w &&& 0xFFF8#16 ≠ 0x2000#16 := by
  refine ⟨_, rfl, rfl, rfl, by decide, ?_⟩
  rintro w ⟨rest, h⟩
  cases h
theorem witness_TickSlotDispatches :
    (let s : State := { start .s2Tick [.sequencer] with eventmask := 0b001, mode := .gameB }
     s.eventmask.getLsbD 0 = true ∧ s.mode ≠ .none) ∧
    (start .s2Tick [.sequencer]).eventmask.getLsbD 0 = false ∧ (start .s2Tick [.sequencer]).mode = .none := by decide
theorem witness_PollSlotEmitsHooks :
    (start .s4Poll [.sequencer]).inputs = .sequencer :: [] ∧ (start .s4Poll [.sequencer]).seq = .s4Poll := ⟨rfl, rfl⟩
theorem witness_ClearSlotEmptiesEventmask :
    (start .s5Clear [.sequencer]).inputs = .sequencer :: [] ∧ (start .s5Clear [.sequencer]).seq = .s5Clear := ⟨rfl, rfl⟩
theorem witness_RenderSlotEmitsOneEvent :
    ({ start .s6Render [.sequencer] with flagmask := 0b001 } : State).flagmask.getLsbD 0 = true ∧
      (start .s6Render [.sequencer]).flagmask.getLsbD 0 = false := by decide
theorem witness_EventmaskProtocol :
    (let s : State := { start .s5Clear [.sequencer] with eventmask := 0b100000 }
     ∃ t, step s = .next t ∧ s.eventmask.getLsbD 5 = true ∧ t.eventmask.getLsbD 5 = false) ∧
    (∃ t, step (start .s2Call [.command 0x5004]) = .next t ∧ t.eventmask.getLsbD 5 = true) ∧
    (∃ t, step (start .s2Call [.pin .tick]) = .next t ∧ t.eventmask.getLsbD 0 = true) := by
  refine ⟨⟨_, rfl, by decide, by decide⟩, ⟨_, rfl, by decide⟩, _, rfl, ?_⟩
  rw [tick_of_not_halt _ _ (by decide)]
  simp [getLsbD_tickBits]
theorem witness_FlagmaskProtocol :
    (let s : State := { start .s1Init [.command 0x4004] with flagmask := 0b100 }
     ∃ t, step s = .next t ∧ s.flagmask.getLsbD 2 = true ∧ t.flagmask.getLsbD 2 = false) ∧
    (∃ t, step (start .s1Init [.command 0x3002]) = .next t ∧ t.flagmask.getLsbD 1 = true) ∧
    (∃ t, step (start .idle [.pin .button]) = .next t ∧ t.flagmask.getLsbD 2 = true) ∧
    (∃ t, step { start .s1Mode [.sequencer] with modeAdv := .gameC } = .next t ∧ t.flagmask.getLsbD 0 = true) :=
  ⟨⟨_, rfl, by decide, by decide⟩, ⟨_, rfl, by decide⟩, ⟨_, rfl, by decide⟩, _, rfl, by decide⟩
theorem witness_BlinkSlotEffect :
    let s : State := { start .s3Blink [.sequencer] with eventmask := 0b001000 }
    s.inputs = .sequencer :: [] ∧ s.seq = .s3Blink ∧ s.eventmask.getLsbD (3 + Colour.red.index) = true ∧
      s.eventmask.getLsbD (3 + Colour.green.index) = false := ⟨rfl, rfl, by decide, by decide⟩
theorem witness_LatchChangesOnlyInBlinkSlot :
    (let s : State := { start .s3Blink [] with eventmask := 0b001000 }
     ∃ t, sequencerStep testConfig s = some t ∧ s.led.get .red = false ∧ t.led.get .red = true) ∧
    (let s : State := { start .s3Blink [] with tickcnt := 9, led := ⟨true, false, false⟩ }
     ∃ t, sequencerStep testConfig s = some t ∧ s.led.get .red = true ∧ t.led.get .red = false) ∧
    (∃ t, step (start .s3Blink [.pin .tick]) = .next t ∧ sequencerNext (start .s3Blink [.pin .tick]) = false ∧
      resetNext (start .s3Blink [.pin .tick]) = false) :=
  ⟨⟨_, rfl, by decide, by decide⟩, ⟨_, rfl, by decide, by decide⟩, _, rfl, rfl, rfl⟩
theorem witness_DistanceLaws : 128 ≤ 128 ∧ 129 ≤ 129 ∧ 255 ≤ 255 := by decide
theorem witness_ExpiryBand :
    testConfig.blinkDuration = 8 ∧ ({ testConfig with blinkDuration := 127 } : Config).blinkDuration.toNat ≤ 127 ∧
      128 ≤ ({ testConfig with blinkDuration := 128 } : Config).blinkDuration.toNat := by decide
theorem witness_AutoOffAfterTimeout :
    (let s : State := { start .s3Blink [] with tickcnt := 9, led := ⟨true, false, false⟩ }
     s.seq = .s3Blink ∧ s.eventmask.getLsbD (3 + Colour.red.index) = false ∧
       testConfig.blinkDuration.toNat < tickDist s.tickcnt (s.ts.get .red) ∧ ∃ t, sequencerStep testConfig s = some t) ∧
    ∃ t, exec .tick (start .idle []) = .next t := ⟨⟨rfl, by decide, by decide, _, rfl⟩, _, rfl⟩
theorem witness_HandlerHangHoldsWindow :
    isWindow (start .s1Init [.pin .tick, .command 0x3001]).seq = true ∧
      ∀ m ∈ [Input.pin .tick, .command 0x3001], (∃ p, m = .pin p) ∨ ∃ w, m = .command w ∧ w ≠ 0x6000#16 := by
  simp [isWindow, start]
theorem witness_FixedSlotOrder :
    (∃ t, step (start .s2Call [.command 0x6000]) = .next t ∧ resetNext (start .s2Call [.command 0x6000]) = false ∧
      t.seq ≠ (start .s2Call [.command 0x6000]).seq) ∧
    (∃ t, step (start .s4Poll [.reset 0]) = .next t ∧ resetNext (start .s4Poll [.reset 0]) = true) ∧
    (let s : State := { start .s2Tick [.sequencer] with eventmask := 0b001, mode := .gameA }
     ∃ t, step s = .next t ∧ resetNext s = false ∧ t.seq ≠ s.seq ∧ isWindow s.seq = false ∧ t.seq = .s2Call) :=
  ⟨⟨_, rfl, rfl, by decide⟩, ⟨_, rfl, rfl⟩, _, rfl, rfl, by decide, by decide, by decide⟩
theorem witness_PassWithoutWindowCompletes :
    let s : State := { start .idle [] with flagmask := 0b010, eventmask := 0b010, mode := .gameA }
    s.seq = .idle ∧ s.inputs = [] ∧ (s.eventmask ≠ 0 ∨ s.flagmask ≠ 0) ∧ (s.modeAdv = .none ∨ s.modeAdv = s.mode) ∧
      (s.eventmask.getLsbD 0 = false ∨ s.mode = .none) := by decide
theorem witness_LateTickEventIsLost :
    (Seq.s4Poll, 2) ∈ [(Seq.s3Blink, 3), (.s4Poll, 2), (.s5Clear, 1)] ∧
      (start .s4Poll (.pin .tick :: (List.replicate 2 .sequencer ++ []))).seq = .s4Poll := by decide
theorem witness_EventBitSurvivesUntilClear :
    let s : State := { start .s2Call [.command 0x3001] with eventmask := 0b001000 }
    (∃ t, core.run 1 s = .next t) ∧ s.eventmask.getLsbD 3 = true ∧
      ∀ (k : Nat) (u : State), k < 1 → core.run k s = .next u →
        resetNext u = false ∧ ¬(u.seq = .s5Clear ∧ sequencerNext u = true) := by
  refine ⟨⟨_, rfl⟩, by decide, ?_⟩
  intro k u hk hu
  obtain rfl : k = 0 := by omega
  cases hu
  decide
theorem witness_StarvedLatchStaysOn :
    let s : State := { start .s3Blink [] with tickcnt := 250, led := ⟨true, false, false⟩ }
    s.seq = .s3Blink ∧ s.eventmask.getLsbD (3 + Colour.red.index) = false ∧ s.led.get .red = true ∧
      testConfig.blinkDuration.toNat ≤ 127 ∧
      256 - testConfig.blinkDuration.toNat ≤ (fwd s.tickcnt (s.ts.get .red)).toNat ∧
      ∃ t, sequencerStep testConfig s = some t := ⟨rfl, by decide, rfl, by decide, by decide, _, rfl⟩
theorem witness_NoWindowOpensWithoutMode :
    let s : State := { start .idle [.sequencer] with flagmask := 0b101 }
    s.mode = .none ∧ s.modeAdv = .none ∧ isWindow s.seq = false ∧ resetNext s = false ∧ ∃ t, step s = .next t :=
  ⟨rfl, rfl, rfl, rfl, _, rfl⟩
theorem witness_OutAppendOnlyAndNeverRead : ∃ t, step (start .s4Poll [.sequencer]) = .next t := ⟨_, rfl⟩
theorem witness_ResetEffect : (start .s2Call [.reset 0x10]).inputs = .reset 0x10#8 :: [] := rfl
theorem witness_BootScenario :
    testConfig.bootModeAdv = .gameA ∧ testConfig.hasInit .gameA = true ∧ testConfig.lowbatEnable = false := by decide
theorem witness_StepKeepsInvariant : Inv (start .idle [.pin .tick]) ∧ ∃ t, step (start .idle [.pin .tick]) = .next t :=
  ⟨⟨by decide, by decide, by decide, by decide, by decide, by decide, nofun, nofun⟩, _, rfl⟩

theorem witness_ReachableStatesMeetInvariant : Reachable (State.afterReset config 0x10 [] [] []) := .boot 0x10

/-! ### A fair run: a TICK and a Sequencer step by turns, in a block with no mode -/

/-- TICK at the even points, the Sequencer at the odd ones. -/
def turns (n : Nat) : Input := if n % 2 = 0 then .pin .tick else .sequencer

/-- The next state of a step, if there is one. -/
def nextOf (s : State) : State :=
  match step s with
  | .next t => t
  | .fault _ => s
  | .refused _ => s

/-- The run under `turns`, from every register 0. -/
def turnsRun : Nat → State
  | 0 => start .idle []
  | n + 1 => nextOf { turnsRun n with inputs := [turns n] }

/-- No mode, no advertisement, no window, no HALT. -/
def Modeless (s : State) : Prop := s.mode = .none ∧ s.modeAdv = .none ∧ isWindow s.seq = false ∧ s.seq ≠ .halt

theorem sequencerStep_of_modeless {s : State} (h : Modeless s) (he : s.eventmask ≠ 0) :
    ∃ t, sequencerStep config s = some t ∧ Modeless t := by
  obtain ⟨hm, ha, hw, hh⟩ := h
  unfold sequencerStep
  rcases hq : s.seq <;> simp only [hq] at hw hh ⊢
  · exact ⟨gotoSeq .s1Mode s, if_pos (by rw [workPending, decide_eq_true he]; rfl), hm, ha, rfl, nofun⟩
  · exact ⟨_, rfl, by rw [modeSlot_of_not_due _ _ (by simp [transitionDue, ha])]; exact ⟨hm, ha, rfl, nofun⟩⟩
  · cases hw
  · exact ⟨_, rfl, by unfold tickSlot; rw [if_neg (by simp [hm])]; exact ⟨hm, ha, rfl, nofun⟩⟩
  · cases hw
  · exact ⟨_, rfl, hm, ha, rfl, nofun⟩
  · exact ⟨_, rfl, hm, ha, rfl, nofun⟩
  · exact ⟨_, rfl, hm, ha, rfl, nofun⟩
  · exact ⟨_, rfl, hm, ha, rfl, nofun⟩
  · exact absurd rfl hh

theorem turnsRun_step (n : Nat) :
    (Modeless (turnsRun n) ∧ (n % 2 = 1 → (turnsRun n).eventmask ≠ 0)) ∧
      step { turnsRun n with inputs := [turns n] } = .next (turnsRun (n + 1)) := by
  have go : ∀ n, (Modeless (turnsRun n) ∧ (n % 2 = 1 → (turnsRun n).eventmask ≠ 0)) →
      ∃ t, step { turnsRun n with inputs := [turns n] } = .next t ∧ Modeless t ∧ ((n + 1) % 2 = 1 → t.eventmask ≠ 0) := by
    rintro n ⟨hM, hE⟩
    by_cases hn : n % 2 = 0
    · refine ⟨_, step_tick (rest := []) (by simp [turns, hn]), ?_, ?_⟩
      · obtain ⟨h1, h2, h3, h4⟩ := hM
        exact ⟨by simpa using h1, by simpa using h2, by simpa using h3, by simpa using h4⟩
      · intro _ h0
        rw [tick_of_not_halt _ _ (by exact hM.2.2.2)] at h0
        have := congrArg (fun m : Byte => m.getLsbD 0) h0
        simp only [getLsbD_setBits, getLsbD_tickBits] at this
        simp at this
    · obtain ⟨t, ht, hMt⟩ := sequencerStep_of_modeless (s := { turnsRun n with inputs := [] }) hM (hE (by omega))
      exact ⟨t, step_sequencer_of_some (by simp [turns, hn]) ht, hMt, by omega⟩
  have inv : ∀ n, Modeless (turnsRun n) ∧ (n % 2 = 1 → (turnsRun n).eventmask ≠ 0) := by
    intro n
    induction n with
    | zero => exact ⟨⟨rfl, rfl, rfl, nofun⟩, by omega⟩
    | succ n ih =>
      obtain ⟨t, ht, h⟩ := go n ih
      rw [show turnsRun (n + 1) = t by simp [turnsRun, nextOf, ht]]
      exact h
  obtain ⟨t, ht, -⟩ := go n (inv n)
  exact ⟨inv n, by rw [ht]; simp [turnsRun, nextOf, ht]⟩

theorem witness_FairRunsReachEverySlot :
    IsRun turns turnsRun ∧ Fair turns turnsRun ∧ (∀ n b, turns n ≠ .reset b) ∧ (turnsRun 0).seq ≠ .halt := by
  refine ⟨fun n => (turnsRun_step n).2, ⟨?_, ?_, ?_⟩, ?_, nofun⟩
  · exact fun n => ⟨2 * n, by omega, by simp [turns]⟩
  · exact fun n _ => ⟨2 * n + 1, by omega, by simp [turns]⟩
  · intro n h
    rw [(turnsRun_step n).1.1.2.2.1] at h
    cases h
  · intro n b
    unfold turns
    split <;> nofun

end Sys2Proof.Tests
end

section
/-! SUPPORT. Which agents' steps are enabled (00_scope.md R11): the pins, the port and the reset always, the Sequencer as its own
step says. -/

namespace Sys2Proof.Machine

/-- A pin event always completes. -/
theorem runPin_next (p : Pin) (s : State) : ∃ t, runPin p s = .next t := by
  cases p with
  | tick => exact ⟨_, runPin_tick s⟩
  | button => exact ⟨_, runPin_button s⟩

/-- A scheduled Sequencer step completes where the Sequencer has a step, and nowhere else. -/
theorem takeSequencerStep_next_iff (c : Config) (s : State) :
    (∃ t, takeSequencerStep c s = .next t) ↔ sequencerStep c s ≠ none := by
  unfold takeSequencerStep
  cases sequencerStep c s <;> simp

/-- Every agent but the Sequencer is enabled in every state (R11). -/
theorem step_next_of_ne_sequencer {s : State} {m : Input} {rest : List Input} (hi : s.inputs = m :: rest)
    (hm : m ≠ .sequencer) : ∃ t, step s = .next t := by
  cases m with
  | pin p => rw [step_pin hi]; exact runPin_next p _
  | command w => rw [step_command hi]; exact runCommand_next w _
  | sequencer => exact absurd rfl hm
  | reset b => exact ⟨_, step_reset hi⟩

/-- A step that names the Sequencer completes unless it waits for work, for a handler, or for a reset (R11). -/
theorem step_sequencer_next_iff {s : State} {rest : List Input} (hi : s.inputs = .sequencer :: rest) :
    (∃ t, step s = .next t) ↔
      ¬((s.seq = .idle ∧ s.eventmask = 0 ∧ s.flagmask = 0) ∨ s.seq = .s1Init ∨ s.seq = .s2Call ∨ s.seq = .halt) := by
  rw [step_sequencer hi, takeSequencerStep_next_iff, ne_eq, sequencerStep_eq_none]

/-- Settles O8: the pins, the port and the reset complete from every state, and the Sequencer exactly where it has a step. -/
theorem anyEnabledStepMayComeNext : Obligations.AnyEnabledStepMayComeNext :=
  ⟨fun _ _ _ hm => step_next_of_ne_sequencer rfl hm, fun _ _ => step_sequencer_next_iff rfl⟩

end Sys2Proof.Machine
end

section
/-! SUPPORT. The words of the mask commands, and EVENTMASK and FLAGMASK under a step: every way a step can write them, said once
(10_state.md R25 to R28), and the two obligations that say it bit by bit. -/

namespace Sys2Proof

/-- The operand bits of a mask command are the low three bits of its word (R72). -/
theorem getLsbD_valField (w : Word) (i : Nat) : (valField w).getLsbD i = (decide (i < 3) && w.getLsbD i) := by
  simp [valField]

/-- OP, in place (R70). -/
theorem and_opField (w : Word) : w &&& 0xF000#16 = BitVec.ofNat 16 (4096 * (opField w).toNat) := by
  have hshift : w &&& 0xF000#16 = (opField w).setWidth 16 <<< 12 := by
    ext i hi
    interval_cases i <;> simp [opField]
  rw [hshift]
  apply BitVec.eq_of_toNat_eq
  simp [Nat.shiftLeft_eq]
  omega

/-- OP and the must-be-zero bits fix all of a word but its operand (R73). -/
theorem and_row {w mbz : Word} {k : Nat} (hop : (opField w).toNat = k) (hmbz : w &&& mbz = 0) :
    w &&& (0xF000#16 ||| mbz) = BitVec.ofNat 16 (4096 * k) := by
  rw [BitVec.and_or_distrib_left, hmbz, and_opField, hop]
  simp

/-- The word agrees with the operation's row under the row's mask, and the operand is the word's operand field (R72, R73): of the
word that the port receives what `Laws.FitsItsRow.Statement` says of the encoder's. -/
def FitsRow (w : Word) : Instr → Prop
  | .rd sel => w &&& 0xF0FF#16 = 0x1000#16 ∧ selField w = sel
  | .wrma m => w &&& 0xFFF8#16 = 0x2000#16 ∧ valField w = m
  | .setf fmask => w &&& 0xFFF8#16 = 0x3000#16 ∧ valField w = fmask
  | .clrf fmask => w &&& 0xFFF8#16 = 0x4000#16 ∧ valField w = fmask
  | .blink cmask => w &&& 0xFFF8#16 = 0x5000#16 ∧ valField w = cmask
  | .hdone => w &&& 0xFFFF#16 = 0x6000#16
  | .tick => w &&& 0xFFFF#16 = 0x8000#16
  | .btn => w &&& 0xFFFF#16 = 0x9000#16

/-- A word that decodes fits the row of its operation (R73, R76). -/
theorem fitsRow_of_decode {w : Word} {i : Instr} (h : decode w = .ok i) : FitsRow w i := by
  rcases decode_ok h with ⟨hop, hmbz, rfl⟩ | ⟨hop, hmbz, rfl⟩ | ⟨hop, hmbz, rfl⟩ | ⟨hop, hmbz, rfl⟩ | ⟨hop, hmbz, rfl⟩ |
    ⟨hop, hmbz, rfl⟩ | ⟨hop, hmbz, rfl⟩ | ⟨hop, hmbz, rfl⟩
  · exact ⟨and_row hop hmbz, rfl⟩
  · exact ⟨and_row hop hmbz, rfl⟩
  · exact ⟨and_row hop hmbz, rfl⟩
  · exact ⟨and_row hop hmbz, rfl⟩
  · exact ⟨and_row hop hmbz, rfl⟩
  · exact and_row hop hmbz
  · exact and_row hop hmbz
  · exact and_row hop hmbz

end Sys2Proof

namespace Sys2Proof.Machine

/-- The only command that writes EVENTMASK is BLINK in a window, which sets bits (R25, R174). -/
theorem runCommand_eventmask {w : Word} {s t : State} (h : runCommand w s = .next t) :
    t.eventmask = s.eventmask ∨
      (isWindow s.seq = true ∧ ∃ m, decode w = .ok (.blink m) ∧ t.eventmask = setBits s.eventmask (colourOperand m)) := by
  rcases runCommand_cases h with ⟨c, rfl⟩ | ⟨v, rfl⟩ |
    ⟨hq, ⟨m, tag, -, -, rfl⟩ | ⟨m, -, rfl⟩ | ⟨m, -, rfl⟩ | ⟨m, hd, rfl⟩ | ⟨-, rfl⟩⟩
  · exact .inl rfl
  · exact .inl rfl
  · exact .inl rfl
  · exact .inl rfl
  · exact .inl rfl
  · exact .inr ⟨hq, m, hd, rfl⟩
  · exact .inl rfl

/-- The only commands that write FLAGMASK are SETF and CLRF in a window (R28, R172, R173). -/
theorem runCommand_flagmask {w : Word} {s t : State} (h : runCommand w s = .next t) :
    t.flagmask = s.flagmask ∨
      (isWindow s.seq = true ∧ ∃ m, decode w = .ok (.setf m) ∧ t.flagmask = setBits s.flagmask (flagOperand m)) ∨
      (isWindow s.seq = true ∧ ∃ m, decode w = .ok (.clrf m) ∧ t.flagmask = clearBits s.flagmask (flagOperand m)) := by
  rcases runCommand_cases h with ⟨c, rfl⟩ | ⟨v, rfl⟩ |
    ⟨hq, ⟨m, tag, -, -, rfl⟩ | ⟨m, hd, rfl⟩ | ⟨m, hd, rfl⟩ | ⟨m, -, rfl⟩ | ⟨-, rfl⟩⟩
  · exact .inl rfl
  · exact .inl rfl
  · exact .inl rfl
  · exact .inr (.inl ⟨hq, m, hd, rfl⟩)
  · exact .inr (.inr ⟨hq, m, hd, rfl⟩)
  · exact .inl rfl
  · exact .inl rfl

@[simp] theorem modeSlot_eventmask (c : Config) (s : State) : (modeSlot c s).eventmask = s.eventmask := by
  unfold modeSlot; split <;> rfl

@[simp] theorem tickSlot_eventmask (s : State) : (tickSlot s).eventmask = s.eventmask := by unfold tickSlot; split <;> rfl

@[simp] theorem tickSlot_flagmask (s : State) : (tickSlot s).flagmask = s.flagmask := by unfold tickSlot; split <;> rfl

/-- The only slot that writes EVENTMASK is S5_CLEAR, which empties it (R25, R130). -/
theorem sequencerStep_eventmask {c : Config} {s t : State} (h : sequencerStep c s = some t) :
    t.eventmask = s.eventmask ∨ (s.seq = .s5Clear ∧ t.eventmask = 0) := by
  rcases sequencerStep_cases h with ⟨-, -, rfl⟩ | ⟨-, rfl⟩ | ⟨-, rfl⟩ | ⟨-, rfl⟩ | ⟨-, rfl⟩ | ⟨hq, rfl⟩ | ⟨-, rfl⟩
  · exact .inl rfl
  · exact .inl (modeSlot_eventmask c s)
  · exact .inl (tickSlot_eventmask s)
  · exact .inl rfl
  · exact .inl rfl
  · exact .inr ⟨hq, rfl⟩
  · exact .inl rfl

/-- The only slot that writes FLAGMASK is S1_MODE, which sets DISPLAY_ACTIVE when it commits a transition (R28, R122). -/
theorem sequencerStep_flagmask {c : Config} {s t : State} (h : sequencerStep c s = some t) :
    t.flagmask = s.flagmask ∨
      (s.seq = .s1Mode ∧ transitionDue s = true ∧ t.flagmask = setBits s.flagmask flDisplayActive) := by
  rcases sequencerStep_cases h with ⟨-, -, rfl⟩ | ⟨hq, rfl⟩ | ⟨-, rfl⟩ | ⟨-, rfl⟩ | ⟨-, rfl⟩ | ⟨-, rfl⟩ | ⟨-, rfl⟩
  · exact .inl rfl
  · cases hd : transitionDue s with
    | true => exact .inr ⟨hq, rfl, by rw [modeSlot_of_due c s hd]; rfl⟩
    | false => exact .inl (by rw [modeSlot_of_not_due c s hd]; rfl)
  · exact .inl (tickSlot_flagmask s)
  all_goals exact .inl rfl

theorem tick_eventmask_cases (c : Config) (s : State) :
    (tick c s).eventmask = s.eventmask ∨ (tick c s).eventmask = setBits s.eventmask (tickBits c (s.tickcnt + 1)) := by
  by_cases h : s.seq = .halt
  · exact .inl (by rw [tick_of_halt s c h])
  · exact .inr (by rw [tick_of_not_halt s c h])

theorem btn_flagmask_cases (c : Config) (s : State) :
    (btn c s).flagmask = s.flagmask ∨ (btn c s).flagmask = setBits s.flagmask (flDisplayActive ||| flButtonPressed) := by
  by_cases h : s.seq = .halt
  · exact .inl (by rw [btn_of_halt s c h])
  · exact .inr (by rw [btn_of_not_halt s c h])

/-- Every way a step can write EVENTMASK (R25, R26). -/
theorem step_eventmask_cases {s t : State} (h : step s = .next t) :
    t.eventmask = s.eventmask ∨
    (pinNext s .tick ∧ t.eventmask = setBits s.eventmask (tickBits config (s.tickcnt + 1))) ∨
    (isWindow s.seq = true ∧ ∃ w m, commandNext s w ∧ decode w = .ok (.blink m) ∧
      t.eventmask = setBits s.eventmask (colourOperand m)) ∨
    (s.seq = .s5Clear ∧ sequencerNext s = true ∧ t.eventmask = 0) ∨
    (resetNext s = true ∧ t.eventmask = 0) := by
  obtain ⟨p, ⟨r, rfl⟩, ⟨-, -, rfl⟩ | ⟨hp, rfl⟩ | ⟨-, rfl⟩ | ⟨w, hw, hc⟩ | ⟨hn, hs⟩ | ⟨hr, b, rest, -, rfl⟩⟩ := step_inversion h
  · exact .inl rfl
  · exact (tick_eventmask_cases config _).imp id fun he => .inl ⟨hp, he⟩
  · exact .inl (btn_eventmask _ config)
  · exact (runCommand_eventmask hc).imp id fun ⟨hq, m, hd, he⟩ => .inr (.inl ⟨hq, w, m, hw, hd, he⟩)
  · exact (sequencerStep_eventmask hs).imp id fun ⟨hq, he⟩ => .inr (.inr (.inl ⟨hq, hn, he⟩))
  · exact .inr (.inr (.inr (.inr ⟨hr, rfl⟩)))

/-- Every way a step can write FLAGMASK (R27, R28). -/
theorem step_flagmask_cases {s t : State} (h : step s = .next t) :
    t.flagmask = s.flagmask ∨
    (pinNext s .button ∧ t.flagmask = setBits s.flagmask (flDisplayActive ||| flButtonPressed)) ∨
    (isWindow s.seq = true ∧ ∃ w m, commandNext s w ∧ decode w = .ok (.setf m) ∧
      t.flagmask = setBits s.flagmask (flagOperand m)) ∨
    (isWindow s.seq = true ∧ ∃ w m, commandNext s w ∧ decode w = .ok (.clrf m) ∧
      t.flagmask = clearBits s.flagmask (flagOperand m)) ∨
    (s.seq = .s1Mode ∧ sequencerNext s = true ∧ transitionDue s = true ∧
      t.flagmask = setBits s.flagmask flDisplayActive) ∨
    (resetNext s = true ∧ t.flagmask = 0) := by
  obtain ⟨p, ⟨r, rfl⟩, ⟨-, -, rfl⟩ | ⟨-, rfl⟩ | ⟨hp, rfl⟩ | ⟨w, hw, hc⟩ | ⟨hn, hs⟩ | ⟨hr, b, rest, -, rfl⟩⟩ := step_inversion h
  · exact .inl rfl
  · exact .inl (tick_flagmask _ config)
  · exact (btn_flagmask_cases config _).imp id fun he => .inl ⟨hp, he⟩
  · rcases runCommand_flagmask hc with he | ⟨hq, m, hd, he⟩ | ⟨hq, m, hd, he⟩
    · exact .inl he
    · exact .inr (.inr (.inl ⟨hq, w, m, hw, hd, he⟩))
    · exact .inr (.inr (.inr (.inl ⟨hq, w, m, hw, hd, he⟩)))
  · exact (sequencerStep_flagmask hs).imp id fun ⟨hq, hd, he⟩ => .inr (.inr (.inr (.inl ⟨hq, hn, hd, he⟩)))
  · exact .inr (.inr (.inr (.inr (.inr ⟨hr, rfl⟩))))

/-- A TICK sets no bit above bit 2 (R100). -/
theorem lt_three_of_tickBits {c : Config} {t : Byte} {b : Nat} (h : (tickBits c t).getLsbD b = true) : b < 3 := by
  rw [getLsbD_tickBits] at h
  simp only [Bool.or_eq_true, Bool.and_eq_true, decide_eq_true_eq] at h
  omega

/-- BTN sets bits 0 and 2 (R105). -/
theorem getLsbD_buttonBits (b : Nat) : (flDisplayActive ||| flButtonPressed).getLsbD b = decide (b = 0 ∨ b = 2) := by
  rw [BitVec.getLsbD_or, flDisplayActive, flButtonPressed, getLsbD_bit0, getLsbD_bit2, Bool.decide_or]

/-- A bit cleared in EVENTMASK: S5_CLEAR or reset (R25). -/
theorem step_eventmask_clears {s t : State} {b : Nat} (h : step s = .next t) (hs : s.eventmask.getLsbD b = true)
    (ht : t.eventmask.getLsbD b = false) :
    resetNext s = true ∨ (s.seq = .s5Clear ∧ sequencerNext s = true ∧ t.eventmask = 0) := by
  rcases step_eventmask_cases h with he | ⟨-, he⟩ | ⟨-, w, m, -, -, he⟩ | hclear | ⟨hr, -⟩
  · simp [he, hs] at ht
  · simp [he, hs] at ht
  · simp [he, hs] at ht
  · exact .inr hclear
  · exact .inl hr

/-- A bit set in EVENTMASK: a TICK or a BLINK word in a window (R26). -/
theorem step_eventmask_sets {s t : State} {b : Nat} (h : step s = .next t) (hs : s.eventmask.getLsbD b = false)
    (ht : t.eventmask.getLsbD b = true) :
    (b < 3 ∧ pinNext s .tick) ∨
      (3 ≤ b ∧ b < 6 ∧ isWindow s.seq = true ∧
        ∃ w, commandNext s w ∧ w &&& 0xFFF8#16 = 0x5000#16 ∧ w.getLsbD (b - 3) = true) := by
  rcases step_eventmask_cases h with he | ⟨hp, he⟩ | ⟨hq, w, m, hw, hd, he⟩ | ⟨-, -, he⟩ | ⟨-, he⟩
  · simp [he, hs] at ht
  · rw [he, getLsbD_setBits, hs, Bool.false_or] at ht
    exact .inl ⟨lt_three_of_tickBits ht, hp⟩
  · obtain ⟨hword, rfl⟩ : FitsRow w (.blink m) := fitsRow_of_decode hd
    simp only [he, getLsbD_setBits, hs, getLsbD_colourOperand, getLsbD_valField, Bool.false_or, Bool.and_eq_true,
      decide_eq_true_eq] at ht
    obtain ⟨h3, h6, hbit⟩ := ht
    exact .inr ⟨h3, by omega, hq, w, hw, hword, hbit⟩
  · simp [he] at ht
  · simp [he] at ht

/-- Settles O39: the writers of EVENTMASK, bit by bit. -/
theorem eventmaskProtocol : Obligations.EventmaskProtocol :=
  ⟨fun _ _ _ => step_eventmask_clears, fun _ _ _ => step_eventmask_sets⟩

/-- A bit cleared in FLAGMASK: a CLRF word in a window, or reset (R28). -/
theorem step_flagmask_clears {s t : State} {b : Nat} (h : step s = .next t) (hs : s.flagmask.getLsbD b = true)
    (ht : t.flagmask.getLsbD b = false) :
    resetNext s = true ∨
      (isWindow s.seq = true ∧ ∃ w, commandNext s w ∧ w &&& 0xFFF8#16 = 0x4000#16 ∧ w.getLsbD b = true) := by
  rcases step_flagmask_cases h with he | ⟨-, he⟩ | ⟨-, w, m, -, -, he⟩ | ⟨hq, w, m, hw, hd, he⟩ | ⟨-, -, -, he⟩ | ⟨hr, -⟩
  · simp [he, hs] at ht
  · simp [he, hs] at ht
  · simp [he, hs] at ht
  · obtain ⟨hword, rfl⟩ : FitsRow w (.clrf m) := fitsRow_of_decode hd
    simp only [he, getLsbD_clearBits, hs, getLsbD_flagOperand, getLsbD_valField, Bool.true_and, Bool.not_eq_false',
      Bool.and_eq_true] at ht
    exact .inr ⟨hq, w, hw, hword, ht.2⟩
  · simp [he, hs] at ht
  · exact .inl hr

/-- A bit set in FLAGMASK: a SETF word in a window, BTN, or a committed transition (R28). -/
theorem step_flagmask_sets {s t : State} {b : Nat} (h : step s = .next t) (hs : s.flagmask.getLsbD b = false)
    (ht : t.flagmask.getLsbD b = true) :
    (b < 3 ∧ isWindow s.seq = true ∧ ∃ w, commandNext s w ∧ w &&& 0xFFF8#16 = 0x3000#16 ∧ w.getLsbD b = true) ∨
      ((b = 0 ∨ b = 2) ∧ pinNext s .button) ∨
      (b = 0 ∧ s.seq = .s1Mode ∧ sequencerNext s = true ∧ s.modeAdv ≠ .none ∧ s.modeAdv ≠ s.mode) := by
  rcases step_flagmask_cases h with he | ⟨hp, he⟩ | ⟨hq, w, m, hw, hd, he⟩ | ⟨-, w, m, -, -, he⟩ | ⟨hq, hn, hdue, he⟩ | ⟨-, he⟩
  · simp [he, hs] at ht
  · rw [he, getLsbD_setBits, hs, Bool.false_or, getLsbD_buttonBits, decide_eq_true_eq] at ht
    exact .inr (.inl ⟨ht, hp⟩)
  · obtain ⟨hword, rfl⟩ : FitsRow w (.setf m) := fitsRow_of_decode hd
    simp only [he, getLsbD_setBits, hs, getLsbD_flagOperand, getLsbD_valField, Bool.false_or, Bool.and_eq_true,
      decide_eq_true_eq] at ht
    obtain ⟨h3, hbit⟩ := ht
    exact .inl ⟨h3, hq, w, hw, hword, hbit⟩
  · simp [he, hs] at ht
  · rw [he, getLsbD_setBits, hs, Bool.false_or, flDisplayActive, getLsbD_bit0, decide_eq_true_eq] at ht
    exact .inr (.inr ⟨ht, hq, hn, (transitionDue_iff s).1 hdue⟩)
  · simp [he] at ht

/-- Settles O40: the writers of FLAGMASK, bit by bit. -/
theorem flagmaskProtocol : Obligations.FlagmaskProtocol :=
  ⟨fun _ _ _ => step_flagmask_clears, fun _ _ _ => step_flagmask_sets⟩

end Sys2Proof.Machine
end

section
/-! SUPPORT. The block after reset, and the state invariant (10_state.md R38, R41): the reserved mask bits by the writers of the masks,
the windows by the two slots that open one. -/

namespace Sys2Proof.Machine

theorem modeCode_le (m : ModeTag) : (modeCode m).toNat ≤ 4 := by cases m <;> decide

theorem seqCode_le (q : Seq) : (seqCode q).toNat ≤ 9 := by cases q <;> decide

theorem faultBits_le (f : Option FaultCode) : (faultBits f).toNat ≤ 5 := by
  rcases f with - | code
  · decide
  · cases code <;> decide

/-- The low-battery check halts the block (R235). -/
theorem bootSeq_eq_halt_iff (c : Config) (batt : Byte) :
    State.bootSeq c batt = .halt ↔ c.lowbatEnable = true ∧ batt.toNat < c.lowbatThreshold.toNat := by
  unfold State.bootSeq
  split <;> simp [*]

/-- Without it the block starts at the idle check (R235). -/
theorem bootSeq_eq_idle_iff (c : Config) (batt : Byte) :
    State.bootSeq c batt = .idle ↔ ¬(c.lowbatEnable = true ∧ batt.toNat < c.lowbatThreshold.toNat) := by
  unfold State.bootSeq
  split <;> simp [*]

theorem isWindow_bootSeq (c : Config) (batt : Byte) : isWindow (State.bootSeq c batt) = false := by
  unfold State.bootSeq; split <;> rfl

/-- Setting bits outside a reserved set keeps the set clear. -/
theorem setBits_and_eq_zero {m bits reserved : Byte} (hm : m &&& reserved = 0) (hb : bits &&& reserved = 0) :
    setBits m bits &&& reserved = 0 := by
  rw [setBits, BitVec.and_comm, BitVec.and_or_distrib_left, BitVec.and_comm reserved m, hm, BitVec.and_comm reserved bits, hb]
  rfl

/-- Clearing bits keeps a reserved set clear. -/
theorem clearBits_and_eq_zero {m reserved : Byte} (bits : Byte) (hm : m &&& reserved = 0) :
    clearBits m bits &&& reserved = 0 := by
  rw [clearBits, BitVec.and_assoc, BitVec.and_comm _ reserved, ← BitVec.and_assoc, hm]
  exact BitVec.zero_and

/-- A TICK leaves EVENTMASK[7:6] alone (R100). -/
theorem tickBits_reserved (c : Config) (t : Byte) : tickBits c t &&& 0b11000000#8 = 0 := by
  unfold tickBits
  split <;> split <;> decide

/-- BLINK leaves EVENTMASK[7:6] alone (R174). -/
theorem colourOperand_reserved (m : BitVec 3) : colourOperand m &&& 0b11000000#8 = 0 := by revert m; decide

/-- SETF leaves FLAGMASK[7:3] alone (R172). -/
theorem flagOperand_reserved (m : BitVec 3) : flagOperand m &&& 0b11111000#8 = 0 := by revert m; decide

/-- Every step keeps EVENTMASK[7:6] = 0 (R41). -/
theorem step_keeps_eventReserved {s t : State} (h : step s = .next t) (hs : s.eventmask &&& 0b11000000#8 = 0) :
    t.eventmask &&& 0b11000000#8 = 0 := by
  rcases step_eventmask_cases h with he | ⟨-, he⟩ | ⟨-, w, m, -, -, he⟩ | ⟨-, -, he⟩ | ⟨-, he⟩ <;> rw [he]
  · exact hs
  · exact setBits_and_eq_zero hs (tickBits_reserved _ _)
  · exact setBits_and_eq_zero hs (colourOperand_reserved m)
  · rfl
  · rfl

/-- Every step keeps FLAGMASK[7:3] = 0 (R41). -/
theorem step_keeps_flagReserved {s t : State} (h : step s = .next t) (hs : s.flagmask &&& 0b11111000#8 = 0) :
    t.flagmask &&& 0b11111000#8 = 0 := by
  rcases step_flagmask_cases h with he | ⟨-, he⟩ | ⟨-, w, m, -, -, he⟩ | ⟨-, w, m, -, -, he⟩ | ⟨-, -, -, he⟩ | ⟨-, he⟩ <;> rw [he]
  · exact hs
  · exact setBits_and_eq_zero hs rfl
  · exact setBits_and_eq_zero hs (flagOperand_reserved m)
  · exact clearBits_and_eq_zero _ hs
  · exact setBits_and_eq_zero hs rfl
  · rfl

theorem isWindow_afterWindow_of_window {q : Seq} (h : isWindow q = true) : isWindow (afterWindow q) = false := by
  rcases (isWindow_iff q).1 h with rfl | rfl <;> rfl

/-- A command leaves SEQ where it is, or closes the window (R175, R181). -/
theorem runCommand_seq {w : Word} {s t : State} (h : runCommand w s = .next t) : t.seq = s.seq ∨ isWindow t.seq = false := by
  rcases runCommand_cases h with ⟨c, rfl⟩ | ⟨v, rfl⟩ |
    ⟨hq, ⟨m, tag, -, -, rfl⟩ | ⟨m, -, rfl⟩ | ⟨m, -, rfl⟩ | ⟨m, -, rfl⟩ | ⟨-, rfl⟩⟩
  · exact .inl rfl
  · exact .inl rfl
  · exact .inl rfl
  · exact .inl rfl
  · exact .inl rfl
  · exact .inl rfl
  · exact .inr (isWindow_afterWindow_of_window hq)

/-- An open window belongs to a mode that owns its entry point (R122, R127). -/
def WindowOwned (c : Config) (s : State) : Prop :=
  (s.seq = .s1Init → c.hasInit s.mode = true) ∧ (s.seq = .s2Call → s.mode ≠ .none)

theorem windowOwned_of_not_window {c : Config} {s : State} (h : isWindow s.seq = false) : WindowOwned c s := by
  obtain ⟨h1, h2⟩ := (isWindow_eq_false_iff _).1 h
  exact ⟨fun hq => absurd hq h1, fun hq => absurd hq h2⟩

theorem WindowOwned.of_eq {c : Config} {s t : State} (h : WindowOwned c s) (hseq : t.seq = s.seq) (hmode : t.mode = s.mode) :
    WindowOwned c t := by
  unfold WindowOwned
  rw [hseq, hmode]
  exact h

/-- S1_MODE opens a window only for an initializer of the mode it commits (R122). -/
theorem modeSlot_windowOwned (c : Config) (s : State) : WindowOwned c (modeSlot c s) := by
  cases hd : transitionDue s with
  | true =>
    rw [modeSlot_of_due c s hd]
    cases hi : c.hasInit s.modeAdv with
    | true => exact ⟨fun _ => hi, fun hq => by simp at hq⟩
    | false => exact windowOwned_of_not_window (rfl)
  | false =>
    rw [modeSlot_of_not_due c s hd]
    exact windowOwned_of_not_window rfl

/-- S2_TICK opens a window only for a mode with a handler (R127). -/
theorem tickSlot_windowOwned (c : Config) (s : State) : WindowOwned c (tickSlot s) := by
  unfold tickSlot
  split
  next h =>
    have hm : s.mode ≠ .none := by simpa using (Bool.and_eq_true_iff.1 h).2
    exact ⟨nofun, fun _ => hm⟩
  next => exact windowOwned_of_not_window rfl

/-- No Sequencer step opens a window for a mode that does not own its entry point, whatever the state before it. -/
theorem sequencerStep_windowOwned {c : Config} {s t : State} (h : sequencerStep c s = some t) : WindowOwned c t := by
  rcases sequencerStep_cases h with ⟨-, -, rfl⟩ | ⟨-, rfl⟩ | ⟨-, rfl⟩ | ⟨-, rfl⟩ | ⟨-, rfl⟩ | ⟨-, rfl⟩ | ⟨-, rfl⟩
  · exact windowOwned_of_not_window rfl
  · exact modeSlot_windowOwned c s
  · exact tickSlot_windowOwned c s
  all_goals exact windowOwned_of_not_window rfl

/-- Every step keeps the two window clauses. -/
theorem step_keeps_windowOwned {s t : State} (h : step s = .next t) (hs : WindowOwned config s) : WindowOwned config t := by
  obtain ⟨p, ⟨r, rfl⟩, ⟨-, -, rfl⟩ | ⟨-, rfl⟩ | ⟨-, rfl⟩ | ⟨w, -, hc⟩ | ⟨-, hq⟩ | ⟨-, b, rest, -, rfl⟩⟩ := step_inversion h
  · exact hs
  · exact hs.of_eq (tick_seq _ config) (tick_mode _ config)
  · exact hs.of_eq (btn_seq _ config) (btn_mode _ config)
  · obtain ⟨-, -, hmode, -⟩ := runCommand_frame hc
    rcases runCommand_seq hc with hseq | hclosed
    · exact hs.of_eq hseq hmode
    · exact windowOwned_of_not_window hclosed
  · exact sequencerStep_windowOwned hq
  · exact windowOwned_of_not_window (isWindow_bootSeq config b)

/-- What of the invariant is not true of every state: the codes are, because the registers hold named values (log entry 12). -/
theorem inv_iff (s : State) :
    Inv s ↔ s.eventmask &&& 0b11000000#8 = 0 ∧ s.flagmask &&& 0b11111000#8 = 0 ∧ WindowOwned config s :=
  ⟨fun h => ⟨h.eventReserved, h.flagReserved, h.initWindow, h.callWindow⟩,
    fun ⟨hevent, hflag, hinit, hcall⟩ =>
      ⟨hevent, hflag, modeCode_le _, modeCode_le _, seqCode_le _, faultBits_le _, hinit, hcall⟩⟩

/-- Settles O58: the writers of the masks leave the reserved bits alone, and the slots open a window only for a mode that owns it. -/
theorem stepKeepsInvariant : Obligations.StepKeepsInvariant := by
  intro s t hinv h
  obtain ⟨hevent, hflag, hwindow⟩ := (inv_iff s).1 hinv
  exact (inv_iff t).2
    ⟨step_keeps_eventReserved h hevent, step_keeps_flagReserved h hflag, step_keeps_windowOwned h hwindow⟩

/-- The block after reset meets the invariant, with any battery value and any trace. -/
theorem inv_afterReset (batt : Byte) (out : List OutEvent) (resps : List Response) (inputs : List Input) :
    Inv (State.afterReset config batt out resps inputs) :=
  (inv_iff _).2 ⟨BitVec.zero_and, BitVec.zero_and, windowOwned_of_not_window (isWindow_bootSeq config batt)⟩

/-- Settles O59: power-on is a reset with nothing shown and nothing scheduled. -/
theorem powerOnMeetsInvariant : Obligations.PowerOnMeetsInvariant := inv_afterReset powerOnBatt [] [] []

/-- The invariant does not speak of the schedule. -/
theorem Inv.with_inputs {s : State} (h : Inv s) (inputs : List Input) : Inv { s with inputs := inputs } :=
  (inv_iff _).2 ((inv_iff s).1 h)

/-- Settles O60, by induction on the run. -/
theorem reachableStatesMeetInvariant : Obligations.ReachableStatesMeetInvariant := by
  intro s hs
  induction hs with
  | boot batt => exact inv_afterReset batt [] [] []
  | step inputs _ h ih => exact stepKeepsInvariant _ _ (ih.with_inputs inputs) h

/-- Settles O19, by evaluating the code of each named value. -/
theorem registerCodes : Obligations.RegisterCodes := by
  unfold Obligations.RegisterCodes
  decide

/-- Settles O56: the reset values, and SEQ by the low-battery check. -/
theorem powerOnState : Obligations.PowerOnState :=
  ⟨rfl, rfl, rfl, rfl, rfl, rfl, rfl, rfl, rfl, bootSeq_eq_halt_iff config powerOnBatt, bootSeq_eq_idle_iff config powerOnBatt,
    rfl, rfl, rfl⟩

end Sys2Proof.Machine
end

section
/-! SUPPORT. OUT is an observation (10_state.md R20, R40): every step appends to it, and every operation commutes with putting events
before it. -/

namespace Sys2Proof.Machine

/-- A Sequencer step appends to OUT. -/
theorem sequencerStep_out {c : Config} {s t : State} (h : sequencerStep c s = some t) : ∃ evs, t.out = s.out ++ evs := by
  rcases sequencerStep_cases h with ⟨-, -, rfl⟩ | ⟨-, rfl⟩ | ⟨-, rfl⟩ | ⟨-, rfl⟩ | ⟨-, rfl⟩ | ⟨-, rfl⟩ | ⟨-, rfl⟩
  · exact ⟨[], (List.append_nil _).symm⟩
  · unfold modeSlot
    split
    · exact ⟨_, rfl⟩
    · exact ⟨[], (List.append_nil _).symm⟩
  · unfold tickSlot
    split
    · exact ⟨_, rfl⟩
    · exact ⟨[], (List.append_nil _).symm⟩
  · exact ⟨_, rfl⟩
  · exact ⟨_, rfl⟩
  · exact ⟨[], (List.append_nil _).symm⟩
  · exact ⟨_, rfl⟩

/-- Every step appends to OUT; only the Sequencer appends anything (R40). -/
theorem step_out {s t : State} (h : step s = .next t) : ∃ evs, t.out = s.out ++ evs := by
  obtain ⟨p, ⟨r, rfl⟩, ⟨-, -, rfl⟩ | ⟨-, rfl⟩ | ⟨-, rfl⟩ | ⟨w, -, hc⟩ | ⟨-, hq⟩ | ⟨-, b, rest, -, rfl⟩⟩ := step_inversion h
  · exact ⟨[], by simp⟩
  · exact ⟨[], by simp⟩
  · exact ⟨[], by simp⟩
  · obtain ⟨-, -, -, -, -, -, hout, -⟩ := runCommand_frame hc
    exact ⟨[], by simp [hout]⟩
  · obtain ⟨evs, hout⟩ := sequencerStep_out hq
    exact ⟨evs, hout⟩
  · exact ⟨[], by simp⟩

/-- The same state with events `o` put before OUT. -/
def prependOut (o : List OutEvent) (s : State) : State := { s with out := o ++ s.out }

section
variable (o : List OutEvent) (c : Config) (s : State)

@[simp] theorem emit_prependOut (es : List OutEvent) : emit es (prependOut o s) = prependOut o (emit es s) := by
  simp [emit, prependOut]

theorem tick_prependOut : tick c (prependOut o s) = prependOut o (tick c s) := by
  by_cases h : s.seq = .halt
  · rw [tick_of_halt s c h, tick_of_halt (prependOut o s) c h]
  · rw [tick_of_not_halt s c h, tick_of_not_halt (prependOut o s) c h]; rfl

theorem btn_prependOut : btn c (prependOut o s) = prependOut o (btn c s) := by
  by_cases h : s.seq = .halt
  · rw [btn_of_halt s c h, btn_of_halt (prependOut o s) c h]
  · rw [btn_of_not_halt s c h, btn_of_not_halt (prependOut o s) c h]; rfl

/-- No select reads OUT (R57). -/
theorem readSel_prependOut (sel : BitVec 4) : readSel c sel (prependOut o s) = readSel c sel s := rfl

theorem readCommand_prependOut (sel : BitVec 4) : readCommand c sel (prependOut o s) = prependOut o (readCommand c sel s) := by
  unfold readCommand
  rw [readSel_prependOut]
  cases readSel c sel s <;> rfl

theorem advertise_prependOut (m : BitVec 3) : advertise m (prependOut o s) = prependOut o (advertise m s) := by
  unfold advertise
  cases modeOfCode m <;> rfl

/-- The window gate reads SEQ only (R176). -/
theorem whenInWindow_prependOut {run : State → State} (hrun : run (prependOut o s) = prependOut o (run s)) :
    whenInWindow run (prependOut o s) = prependOut o (whenInWindow run s) := by
  cases hq : isWindow s.seq with
  | true => rw [whenInWindow_of_window _ s hq, whenInWindow_of_window _ (prependOut o s) hq, hrun]
  | false => rw [whenInWindow_of_not_window _ s hq, whenInWindow_of_not_window _ (prependOut o s) hq]; rfl

theorem modeSlot_prependOut : modeSlot c (prependOut o s) = prependOut o (modeSlot c s) := by
  cases hd : transitionDue s with
  | true => rw [modeSlot_of_due c s hd, modeSlot_of_due c (prependOut o s) hd, ← emit_prependOut]; rfl
  | false => rw [modeSlot_of_not_due c s hd, modeSlot_of_not_due c (prependOut o s) hd]; rfl

theorem tickSlot_prependOut : tickSlot (prependOut o s) = prependOut o (tickSlot s) := by
  have hemit : gotoSeq .s2Call (emit [.processTick s.mode] (prependOut o s)) =
      prependOut o (gotoSeq .s2Call (emit [.processTick s.mode] s)) := by
    rw [emit_prependOut]; rfl
  unfold tickSlot
  rw [apply_ite (prependOut o), ← hemit]
  rfl

theorem blinkSlot_prependOut : blinkSlot c (prependOut o s) = prependOut o (blinkSlot c s) :=
  congrArg (gotoSeq .s4Poll) (emit_prependOut o { s with ts := PerColour.ofFn (stampAfter s), led := PerColour.ofFn (latchAfter c s) } _)

theorem pollSlot_prependOut : pollSlot (prependOut o s) = prependOut o (pollSlot s) :=
  congrArg (gotoSeq .s5Clear) (emit_prependOut o s _)

theorem renderSlot_prependOut : renderSlot (prependOut o s) = prependOut o (renderSlot s) :=
  congrArg (gotoSeq .idle) (emit_prependOut o s _)

/-- Which Sequencer step comes, and what it does, does not depend on OUT. -/
theorem sequencerStep_prependOut : sequencerStep c (prependOut o s) = (sequencerStep c s).map (prependOut o) := by
  have hseq : (prependOut o s).seq = s.seq := rfl
  have hwork : workPending (prependOut o s) = workPending s := rfl
  unfold sequencerStep
  rw [hseq, hwork]
  cases s.seq with
  | idle => cases workPending s <;> rfl
  | s1Mode => exact congrArg some (modeSlot_prependOut o c s)
  | s1Init => rfl
  | s2Tick => exact congrArg some (tickSlot_prependOut o s)
  | s2Call => rfl
  | s3Blink => exact congrArg some (blinkSlot_prependOut o c s)
  | s4Poll => exact congrArg some (pollSlot_prependOut o s)
  | s5Clear => rfl
  | s6Render => exact congrArg some (renderSlot_prependOut o s)
  | halt => rfl

theorem runAlone_prependOut : runAlone c (prependOut o s) = prependOut o (runAlone c s) := by
  unfold runAlone
  rw [sequencerStep_prependOut]
  cases sequencerStep c s <;> rfl

end

/-- No operation reads OUT. -/
theorem exec_prependOut (o : List OutEvent) {i : Instr} {s t : State} (h : exec i s = .next t) :
    exec i (prependOut o s) = .next (prependOut o t) := by
  cases i <;> cases h
  case rd sel => exact congrArg _ (readCommand_prependOut o config s sel)
  case wrma m => exact congrArg _ (whenInWindow_prependOut o s (advertise_prependOut o s m))
  case setf m => exact congrArg _ (whenInWindow_prependOut (run := setFlags m) o s rfl)
  case clrf m => exact congrArg _ (whenInWindow_prependOut (run := clearFlags m) o s rfl)
  case blink m => exact congrArg _ (whenInWindow_prependOut (run := requestBlink m) o s rfl)
  case hdone => exact congrArg _ (whenInWindow_prependOut (run := closeWindow) o s rfl)
  case tick => exact congrArg _ (tick_prependOut o config s)
  case btn => exact congrArg _ (btn_prependOut o config s)

/-- No command word, rejected or not, reads OUT. -/
theorem runCommand_prependOut (o : List OutEvent) {w : Word} {s t : State} (h : runCommand w s = .next t) :
    runCommand w (prependOut o s) = .next (prependOut o t) := by
  cases hd : decodePort w with
  | error r =>
    rw [runCommand_error hd] at h ⊢
    cases h
    rfl
  | ok i =>
    rw [runCommand_ok hd] at h ⊢
    exact exec_prependOut o h

/-- With any events before OUT the same step is taken, and leaves the same state but for them (R20, R40). -/
theorem step_prependOut (o : List OutEvent) {s t : State} (h : step s = .next t) :
    step (prependOut o s) = .next (prependOut o t) := by
  rcases step_cases h with ⟨hi, rfl⟩ | ⟨rest, hi, rfl⟩ | ⟨rest, hi, rfl⟩ | ⟨w, rest, hi, hc⟩ | ⟨rest, hi, hs⟩ | ⟨b, rest, hi, rfl⟩
  · rw [step_alone (s := prependOut o s) hi, runAlone_prependOut]
  · rw [step_tick (s := prependOut o s) hi, ← tick_prependOut]; rfl
  · rw [step_button (s := prependOut o s) hi, ← btn_prependOut]; rfl
  · exact (step_command (s := prependOut o s) hi).trans (runCommand_prependOut o hc)
  · refine step_sequencer_of_some (s := prependOut o s) hi ?_
    exact (sequencerStep_prependOut o config { s with inputs := rest }).trans (congrArg (Option.map (prependOut o)) hs)
  · exact step_reset (s := prependOut o s) hi

/-- Settles O53: steps append to OUT, and commute with putting events before it. -/
theorem outAppendOnlyAndNeverRead : Obligations.OutAppendOnlyAndNeverRead :=
  ⟨fun _ _ => step_out, fun _ _ o => step_prependOut o⟩

end Sys2Proof.Machine
end

section
/-! SUPPORT. Reads and repeated commands (20_memory.md): what RD answers in any state, and why a command given twice in a row writes
no register the second time. -/

namespace Sys2Proof

/-- OP is the word shifted down (R70). -/
theorem shiftRight_twelve_toNat (w : Word) : (w >>> 12).toNat = (opField w).toNat := by
  rw [opField_toNat, BitVec.toNat_ushiftRight, Nat.shiftRight_eq_div_pow]

/-- On the port, a word of a command's row with a must-be-zero bit set is rejected for that bit (R76, R179). -/
theorem decodePort_rsvdBits {w mbz : Word} {i : Instr} (hrow : decode w = checkMbz w mbz i) (hop : (opField w).toNat < 8)
    (hm : w &&& mbz ≠ 0) : decodePort w = .error .rsvdBits := by
  have hev : ¬ isEventOp w = true := by rw [isEventOp_iff]; omega
  rw [decodePort, if_neg hev, hrow, checkMbz_error]
  exact ⟨hm, rfl⟩

/-- RD's row of the decoder (R73). -/
theorem decode_rdRow {w : Word} (hop : (opField w).toNat = 1) : decode w = checkMbz w 0x00FF#16 (.rd (selField w)) := by
  simpa [hop] using decode_cases w

/-- RD's word as a number (R70, R73). -/
theorem encode_rd_toNat (sel : BitVec 4) : (encode (.rd sel)).toNat = 0x1000 + 0x100 * sel.toNat := by
  revert sel; decide

end Sys2Proof

namespace Sys2Proof.Machine

/-- A step that takes a rejected word from the port only records the fault (R179, R201, R204). -/
theorem step_command_of_error {s : State} {w : Word} {r : Reject} {rest : List Input} (hi : s.inputs = .command w :: rest)
    (hd : decodePort w = .error r) : step s = .next (raiseFault (rejectCode r) { s with inputs := rest }) := by
  rw [step_command hi, runCommand_error hd]

/-! ### What RD answers -/

theorem readCommand_of_some {c : Config} {sel : BitVec 4} {s : State} {v : Word} (h : readSel c sel s = some v) :
    readCommand c sel s = respond v s := by
  rw [readCommand, h]

theorem readCommand_of_none {c : Config} {sel : BitVec 4} {s : State} (h : readSel c sel s = none) :
    readCommand c sel s = raiseFault .badSel s := by
  rw [readCommand, h]

/-- No select reads the responses (R57). -/
theorem readSel_respond (c : Config) (sel : BitVec 4) (s : State) (v : Word) : readSel c sel (respond v s) = readSel c sel s := rfl

/-- A select answers its register, of whatever width, zero-extended (R57, R170). -/
theorem exec_rd_of_select {sel : BitVec 4} {s : State} {n : Nat} {x : BitVec n} (h : readSel config sel s = some (x.setWidth 16)) :
    exec (.rd sel) s = .next { s with resps := s.resps ++ [.value (BitVec.ofNat 16 x.toNat)] } := by
  rw [exec_rd, readCommand_of_some h, BitVec.ofNat_toNat]
  rfl

/-- A reserved select raises BAD_SEL (R57, R170). -/
theorem exec_rd_of_reserved {sel : BitVec 4} (s : State) (h : 14 ≤ sel.toNat) : exec (.rd sel) s = .next (raiseFault .badSel s) := by
  rw [exec_rd, readCommand_of_none (readSel_of_ge config sel s h)]

/-- LED as RD packs it, as a number (R33). -/
theorem ledBits_toNat (led : PerColour Bool) :
    (ledBits led).toNat = 4 * led.green.toNat + 2 * led.yellow.toNat + led.red.toNat := by
  obtain ⟨red, yellow, green⟩ := led
  cases red <;> cases yellow <;> cases green <;> rfl

/-- Settles O18: RD's row of the decoder, then the read-select map one select at a time. -/
theorem readSelectMap : Obligations.ReadSelectMap := by
  refine ⟨encode_rd_toNat, ?_, fun s => ?_⟩
  · intro s w rest hi hop hm
    rw [shiftRight_twelve_toNat] at hop
    exact step_command_of_error hi (decodePort_rsvdBits (decode_rdRow hop) (by omega) hm)
  · have hcountdown : readSel config 3 s = some (s.countdown.setWidth 16) := congrArg some (BitVec.setWidth_eq _).symm
    rw [← ledBits_toNat]
    exact ⟨exec_rd_of_select rfl, exec_rd_of_select rfl, exec_rd_of_select rfl, exec_rd_of_select hcountdown,
      exec_rd_of_select rfl, exec_rd_of_select rfl, exec_rd_of_select rfl, exec_rd_of_select rfl, exec_rd_of_select rfl,
      exec_rd_of_select rfl, exec_rd_of_select rfl, exec_rd_of_select rfl, exec_rd_of_select rfl, exec_rd_of_select rfl,
      exec_rd_of_reserved s (by decide), exec_rd_of_reserved s (by decide)⟩

/-! ### Commands given twice -/

/-- `run` a second time, right after a first time from `s`, changes nothing but the response trace. -/
def RepeatKeepsRegisters (run : State → State) (s : State) : Prop :=
  run (run s) = { run s with resps := (run (run s)).resps }

/-- FAULT keeps its first code, so a fault raised twice writes it once (R201). -/
theorem raiseFault_repeat (code : FaultCode) (s : State) : RepeatKeepsRegisters (raiseFault code) s := rfl

/-- A command that leaves SEQ alone meets the same answer of the window gate twice (R176). -/
theorem whenInWindow_repeat {run : State → State} {s : State} (hseq : (run s).seq = s.seq) (hrun : RepeatKeepsRegisters run s) :
    RepeatKeepsRegisters (whenInWindow run) s := by
  unfold RepeatKeepsRegisters
  cases hw : isWindow s.seq with
  | true =>
    have hw' : isWindow (run s).seq = true := hseq ▸ hw
    rw [whenInWindow_of_window run s hw, whenInWindow_of_window run (run s) hw']
    exact hrun
  | false =>
    have hw' : isWindow (raiseFault .window s).seq = false := hw
    rw [whenInWindow_of_not_window run s hw, whenInWindow_of_not_window run _ hw']
    exact raiseFault_repeat .window s

theorem setBits_setBits (mask bits : Byte) : setBits (setBits mask bits) bits = setBits mask bits := by
  simp [setBits, BitVec.or_assoc]

theorem clearBits_clearBits (mask bits : Byte) : clearBits (clearBits mask bits) bits = clearBits mask bits := by
  simp [clearBits, BitVec.and_assoc]

theorem advertise_seq (m : BitVec 3) (s : State) : (advertise m s).seq = s.seq := by
  rcases advertise_cases m s with ⟨tag, -, -, h⟩ | ⟨-, h⟩ <;> rw [h] <;> rfl

/-- Whether WRMA faults depends on its code alone, and it writes the same mode each time (R171). -/
theorem advertise_repeat (m : BitVec 3) (s : State) : RepeatKeepsRegisters (advertise m) s := by
  unfold RepeatKeepsRegisters advertise
  cases modeOfCode m <;> rfl

theorem setFlags_repeat (m : BitVec 3) (s : State) : RepeatKeepsRegisters (setFlags m) s := by
  simp [RepeatKeepsRegisters, setFlags, respond, setBits_setBits]

theorem clearFlags_repeat (m : BitVec 3) (s : State) : RepeatKeepsRegisters (clearFlags m) s := by
  simp [RepeatKeepsRegisters, clearFlags, respond, clearBits_clearBits]

theorem requestBlink_repeat (m : BitVec 3) (s : State) : RepeatKeepsRegisters (requestBlink m) s := by
  simp [RepeatKeepsRegisters, requestBlink, respond, setBits_setBits]

/-- Settles O30: each of the four rules is idempotent on its register, and so is the window gate before it. -/
theorem repeatedCommandsIdempotent : Obligations.RepeatedCommandsIdempotent := by
  rintro s t u i m (rfl | rfl | rfl | rfl) ht hu <;> cases ht <;> cases hu
  · exact whenInWindow_repeat (advertise_seq m s) (advertise_repeat m s)
  · exact whenInWindow_repeat rfl (setFlags_repeat m s)
  · exact whenInWindow_repeat rfl (clearFlags_repeat m s)
  · exact whenInWindow_repeat rfl (requestBlink_repeat m s)

/-- RD twice in a row answers the same both times, value or fault, and the second changes no register (R54, R170). -/
theorem readCommand_repeat (c : Config) (sel : BitVec 4) (s : State) :
    RepeatKeepsRegisters (readCommand c sel) s ∧ ∃ r, (readCommand c sel s).resps = s.resps ++ [r] ∧
      (readCommand c sel (readCommand c sel s)).resps = (readCommand c sel s).resps ++ [r] := by
  unfold RepeatKeepsRegisters
  rcases readCommand_cases c sel s with ⟨v, hv, h⟩ | ⟨hsel, h⟩ <;> rw [h]
  · rw [readCommand_of_some ((readSel_respond c sel s v).trans hv)]
    exact ⟨rfl, .value v, rfl, rfl⟩
  · rw [readCommand_of_none (readSel_of_ge c sel _ hsel)]
    exact ⟨raiseFault_repeat .badSel s, .fault .badSel, rfl, rfl⟩

/-- Settles O20: a legal select names a register, and no select reads what a read writes. -/
theorem readsHaveNoSideEffect : Obligations.ReadsHaveNoSideEffect := by
  constructor
  · intro s sel hsel
    obtain ⟨v, hv⟩ := readSel_of_lt config sel s hsel
    exact ⟨v, congrArg _ (readCommand_of_some hv)⟩
  · intro s t u sel ht hu
    cases ht
    cases hu
    obtain ⟨hregs, r, hfirst, hsecond⟩ := readCommand_repeat config sel s
    exact ⟨r, hfirst, hsecond, hregs⟩

end Sys2Proof.Machine
end

section
/-! SUPPORT. The encoder and the decoder against each other (30_encoding.md R70 to R81): the rows of R73 read off a word's bits, each
operation's word as a number, and the four classes of R78. -/

namespace Sys2Proof

/-! ### From an operation to its word and back -/

/-- A word that matches a row under its mask has the row's OP and no must-be-zero bit set, so it decodes as the row says (R73). -/
theorem decode_of_match {w mask value mbz : Word} {i : Instr} (h : w &&& mask = value) (hop : opField mask = 15#4)
    (hmbz : mask &&& mbz = mbz) (hzero : value &&& mbz = 0)
    (hrow : opField w = opField value → decode w = checkMbz w mbz i) : decode w = .ok i := by
  have hopField : opField w = opField value := by
    rw [← h, opField, opField, BitVec.extractLsb'_and, ← opField, ← opField, hop]
    exact BitVec.and_allOnes.symm
  have hmbzBits : w &&& mbz = 0 := by rw [← hzero, ← h, BitVec.and_assoc, hmbz]
  rw [hrow hopField]
  exact checkMbz_ok.2 ⟨hmbzBits, rfl⟩

theorem decode_of_rdMatch {w : Word} (h : w &&& 0xF0FF#16 = 0x1000#16) : decode w = .ok (.rd (selField w)) :=
  decode_of_match h rfl rfl rfl fun hop => by rw [decode, hop]; rfl

theorem decode_of_wrmaMatch {w : Word} (h : w &&& 0xFFF8#16 = 0x2000#16) : decode w = .ok (.wrma (valField w)) :=
  decode_of_match h rfl rfl rfl fun hop => by rw [decode, hop]; rfl

theorem decode_of_setfMatch {w : Word} (h : w &&& 0xFFF8#16 = 0x3000#16) : decode w = .ok (.setf (valField w)) :=
  decode_of_match h rfl rfl rfl fun hop => by rw [decode, hop]; rfl

theorem decode_of_clrfMatch {w : Word} (h : w &&& 0xFFF8#16 = 0x4000#16) : decode w = .ok (.clrf (valField w)) :=
  decode_of_match h rfl rfl rfl fun hop => by rw [decode, hop]; rfl

theorem decode_of_blinkMatch {w : Word} (h : w &&& 0xFFF8#16 = 0x5000#16) : decode w = .ok (.blink (valField w)) :=
  decode_of_match h rfl rfl rfl fun hop => by rw [decode, hop]; rfl

/-- Settles O2: an operation's word matches its row, so the decoder takes that row, and the operand is read back from its field. -/
theorem decodeEncodeIdentity : Obligations.DecodeEncodeIdentity := by
  intro i
  cases i with
  | rd sel =>
    obtain ⟨hrow, hsel⟩ := Laws.FitsItsRow.rd sel
    rw [decode_of_rdMatch hrow, hsel]
  | wrma m =>
    obtain ⟨hrow, hval⟩ := Laws.FitsItsRow.wrma m
    rw [decode_of_wrmaMatch hrow, hval]
  | setf fmask =>
    obtain ⟨hrow, hval⟩ := Laws.FitsItsRow.setf fmask
    rw [decode_of_setfMatch hrow, hval]
  | clrf fmask =>
    obtain ⟨hrow, hval⟩ := Laws.FitsItsRow.clrf fmask
    rw [decode_of_clrfMatch hrow, hval]
  | blink cmask =>
    obtain ⟨hrow, hval⟩ := Laws.FitsItsRow.blink cmask
    rw [decode_of_blinkMatch hrow, hval]
  | hdone => rfl
  | tick => rfl
  | btn => rfl

/-! ### From a word to its operation and back -/

theorem selField_toNat (w : Word) : (selField w).toNat = w.toNat / 256 % 16 := by
  rw [selField, BitVec.extractLsb'_toNat, Nat.shiftRight_eq_div_pow]

theorem valField_toNat (w : Word) : (valField w).toNat = w.toNat % 8 := by
  rw [valField, BitVec.extractLsb'_toNat, Nat.shiftRight_zero]

/-- Masking with `n` ones keeps the low `n` bits. -/
theorem and_ones_toNat (w : Word) {n : Nat} (hn : n ≤ 16) : (w &&& BitVec.ofNat 16 (2 ^ n - 1)).toNat = w.toNat % 2 ^ n := by
  have hpow : 2 ^ n ≤ 2 ^ 16 := Nat.pow_le_pow_right (by decide) hn
  have hlt : 2 ^ n - 1 < 2 ^ 16 := by omega
  rw [BitVec.toNat_and, BitVec.toNat_ofNat, Nat.mod_eq_of_lt hlt, Nat.and_two_pow_sub_one_eq_mod]

/-- When the must-be-zero bits of the low `n` bits are 0, what stands there is the operand in the low `k` bits. -/
theorem mod_of_mbz {w mbz : Word} (n k : Nat) (h : w &&& mbz = 0) (hn : n ≤ 16) (hk : k ≤ 16)
    (hmbz : BitVec.ofNat 16 (2 ^ n - 1) = mbz ||| BitVec.ofNat 16 (2 ^ k - 1)) : w.toNat % 2 ^ n = w.toNat % 2 ^ k := by
  rw [← and_ones_toNat w hn, ← and_ones_toNat w hk, hmbz, BitVec.and_or_distrib_left, h]
  exact congrArg BitVec.toNat BitVec.zero_or

/-- The word of an operation as a number: OP and the operand, each at its place (R72, R73). -/
def wordNumber : Instr → Nat
  | .rd sel => 0x1000 + 0x100 * sel.toNat
  | .wrma m => 0x2000 + m.toNat
  | .setf fmask => 0x3000 + fmask.toNat
  | .clrf fmask => 0x4000 + fmask.toNat
  | .blink cmask => 0x5000 + cmask.toNat
  | .hdone => 0x6000
  | .tick => 0x8000
  | .btn => 0x9000

theorem encode_toNat (i : Instr) : (encode i).toNat = wordNumber i := by
  cases i with
  | rd sel => exact encode_rd_toNat sel
  | wrma m => revert m; decide
  | setf fmask => revert fmask; decide
  | clrf fmask => revert fmask; decide
  | blink cmask => revert cmask; decide
  | hdone => rfl
  | tick => rfl
  | btn => rfl

/-- A word of OP `k` whose only operand is its low three bits. -/
theorem toNat_of_operandRow {w : Word} {k : Nat} (hop : (opField w).toNat = k) (hmbz : w &&& 0x0FF8#16 = 0) :
    0x1000 * k + (valField w).toNat = w.toNat := by
  have hlow := mod_of_mbz 12 3 hmbz (by decide) (by decide) rfl
  rw [opField_toNat] at hop
  rw [valField_toNat]
  omega

/-- A word of OP `k` without an operand. -/
theorem toNat_of_bareRow {w : Word} {k : Nat} (hop : (opField w).toNat = k) (hmbz : w &&& 0x0FFF#16 = 0) :
    0x1000 * k = w.toNat := by
  have hlow := mod_of_mbz 12 0 hmbz (by decide) (by decide) rfl
  rw [opField_toNat] at hop
  omega

/-- A word of OP `k` whose only operand is SEL. -/
theorem toNat_of_selRow {w : Word} {k : Nat} (hop : (opField w).toNat = k) (hmbz : w &&& 0x00FF#16 = 0) :
    0x1000 * k + 0x100 * (selField w).toNat = w.toNat := by
  have hlow := mod_of_mbz 8 0 hmbz (by decide) (by decide) rfl
  rw [opField_toNat] at hop
  rw [selField_toNat]
  omega

/-- Settles O3: OP, the operand field and the zeros between them are the whole of a word that decodes. -/
theorem encodeDecodeIdentity : Obligations.EncodeDecodeIdentity := by
  intro w i h
  apply BitVec.eq_of_toNat_eq
  rw [encode_toNat]
  rcases decode_ok h with ⟨hop, hmbz, rfl⟩ | ⟨hop, hmbz, rfl⟩ | ⟨hop, hmbz, rfl⟩ | ⟨hop, hmbz, rfl⟩ | ⟨hop, hmbz, rfl⟩ |
    ⟨hop, hmbz, rfl⟩ | ⟨hop, hmbz, rfl⟩ | ⟨hop, hmbz, rfl⟩
  · exact toNat_of_selRow hop hmbz
  · exact toNat_of_operandRow hop hmbz
  · exact toNat_of_operandRow hop hmbz
  · exact toNat_of_operandRow hop hmbz
  · exact toNat_of_operandRow hop hmbz
  · exact toNat_of_bareRow hop hmbz
  · exact toNat_of_bareRow hop hmbz
  · exact toNat_of_bareRow hop hmbz

/-- Decoding and encoding are inverse to each other (R73). -/
theorem decode_eq_ok_iff {w : Word} {i : Instr} : decode w = .ok i ↔ w = encode i :=
  ⟨fun h => (encodeDecodeIdentity w i h).symm, fun h => h ▸ decodeEncodeIdentity i⟩

/-! ### The four classes of words (R78) -/

theorem decode_eq_illegalOp_iff {w : Word} :
    decode w = .error .illegalOp ↔ (opField w).toNat ∉ [1, 2, 3, 4, 5, 6, 8, 9] := by
  rcases decode_cases w with ⟨ho, hd⟩ | ⟨ho, hd⟩ | ⟨ho, hd⟩ | ⟨ho, hd⟩ | ⟨ho, hd⟩ | ⟨ho, hd⟩ | ⟨ho, hd⟩ | ⟨ho, hd⟩ | ⟨ho, hd⟩ <;>
    simp [hd, checkMbz_error, ho]

theorem decode_eq_rsvdBits_iff {w : Word} :
    decode w = .error .rsvdBits ↔
      ((opField w).toNat = 1 ∧ w &&& 0x00FF#16 ≠ 0) ∨ ((opField w).toNat ∈ [2, 3, 4, 5] ∧ w &&& 0x0FF8#16 ≠ 0) ∨
      ((opField w).toNat ∈ [6, 8, 9] ∧ w &&& 0x0FFF#16 ≠ 0) := by
  rcases decode_cases w with ⟨ho, hd⟩ | ⟨ho, hd⟩ | ⟨ho, hd⟩ | ⟨ho, hd⟩ | ⟨ho, hd⟩ | ⟨ho, hd⟩ | ⟨ho, hd⟩ | ⟨ho, hd⟩ | ⟨ho, hd⟩ <;>
    simp_all [checkMbz_error]

/-- The opcodes of R75 are those with no row in R73. -/
theorem illegalOpcode_iff (op : BitVec 4) :
    op.toNat ∉ [1, 2, 3, 4, 5, 6, 8, 9] ↔ op.toNat ∈ [0x0, 0x7, 0xA, 0xB, 0xC, 0xD, 0xE, 0xF] := by
  revert op; decide

/-- The five reserved-value words (R77). -/
theorem decode_reserved_iff {w : Word} :
    (∃ i : Instr, decode w = .ok i ∧ i.wellFormed = false) ↔
      w = 0x1E00#16 ∨ w = 0x1F00#16 ∨ w = 0x2005#16 ∨ w = 0x2006#16 ∨ w = 0x2007#16 := by
  constructor
  · rintro ⟨i, hd, hwf⟩
    have hw : w.toNat = wordNumber i := by rw [decode_eq_ok_iff.1 hd, encode_toNat]
    cases i with
    | rd sel =>
      have hsel : 14 ≤ sel.toNat := by simpa [Instr.wellFormed] using hwf
      rw [wordNumber] at hw
      bv_omega
    | wrma m =>
      have hm : 5 ≤ m.toNat := by simpa [Instr.wellFormed] using hwf
      rw [wordNumber] at hw
      bv_omega
    | _ => cases hwf
  · rintro (rfl | rfl | rfl | rfl | rfl)
    · exact ⟨.rd 14, rfl, rfl⟩
    · exact ⟨.rd 15, rfl, rfl⟩
    · exact ⟨.wrma 5, rfl, rfl⟩
    · exact ⟨.wrma 6, rfl, rfl⟩
    · exact ⟨.wrma 7, rfl, rfl⟩

/-- The words of legal operations with legal operand values (R73, R77). -/
theorem decode_legal_iff {w : Word} :
    (∃ i : Instr, decode w = .ok i ∧ i.wellFormed = true) ↔
      (w &&& 0xF0FF#16 = 0x1000#16 ∧ w.toNat < 0x1E00) ∨ (w &&& 0xFFF8#16 = 0x2000#16 ∧ w.toNat < 0x2005) ∨
      w &&& 0xFFF8#16 = 0x3000#16 ∨ w &&& 0xFFF8#16 = 0x4000#16 ∨ w &&& 0xFFF8#16 = 0x5000#16 ∨
      w = 0x6000#16 ∨ w = 0x8000#16 ∨ w = 0x9000#16 := by
  constructor
  · rintro ⟨i, hd, hwf⟩
    rw [decode_eq_ok_iff] at hd
    subst hd
    cases i with
    | rd sel =>
      have hsel : sel.toNat < 14 := by simpa [Instr.wellFormed] using hwf
      refine .inl ⟨(Laws.FitsItsRow.rd sel).1, ?_⟩
      rw [encode_toNat, wordNumber]
      omega
    | wrma m =>
      have hm : m.toNat < 5 := by simpa [Instr.wellFormed] using hwf
      refine .inr (.inl ⟨(Laws.FitsItsRow.wrma m).1, ?_⟩)
      rw [encode_toNat, wordNumber]
      omega
    | setf fmask => exact .inr (.inr (.inl (Laws.FitsItsRow.setf fmask).1))
    | clrf fmask => exact .inr (.inr (.inr (.inl (Laws.FitsItsRow.clrf fmask).1)))
    | blink cmask => exact .inr (.inr (.inr (.inr (.inl (Laws.FitsItsRow.blink cmask).1))))
    | hdone => decide
    | tick => decide
    | btn => decide
  · rintro (⟨hrow, hlt⟩ | ⟨hrow, hlt⟩ | hrow | hrow | hrow | rfl | rfl | rfl)
    · refine ⟨_, decode_of_rdMatch hrow, decide_eq_true ?_⟩
      rw [decode_eq_ok_iff.1 (decode_of_rdMatch hrow), encode_toNat, wordNumber] at hlt
      omega
    · refine ⟨_, decode_of_wrmaMatch hrow, decide_eq_true ?_⟩
      rw [decode_eq_ok_iff.1 (decode_of_wrmaMatch hrow), encode_toNat, wordNumber] at hlt
      omega
    · exact ⟨_, decode_of_setfMatch hrow, rfl⟩
    · exact ⟨_, decode_of_clrfMatch hrow, rfl⟩
    · exact ⟨_, decode_of_blinkMatch hrow, rfl⟩
    · exact ⟨.hdone, rfl, rfl⟩
    · exact ⟨.tick, rfl, rfl⟩
    · exact ⟨.btn, rfl, rfl⟩

/-- Settles O4: the two faults of the decoder, and the words of the operations with a reserved and with a legal operand value. -/
theorem everyWordClassified : Obligations.EveryWordClassified := by
  intro w
  rw [shiftRight_twelve_toNat]
  exact ⟨decode_eq_illegalOp_iff.trans (illegalOpcode_iff _), decode_eq_rsvdBits_iff, decode_reserved_iff, decode_legal_iff⟩

end Sys2Proof

namespace Sys2Proof.Machine

/-- A line that says an operation assembles to the operation's word, which decodes to it again (R79, R80). -/
theorem assemble_decodes {text : String} {i : Instr} (h : parseLine text = some (.op i)) :
    assemble text = some (encode i) ∧ decode (encode i) = .ok i :=
  ⟨by rw [assemble, h], decodeEncodeIdentity i⟩

/-- Settles O1: each line says the operation beside it, whose word is the one in the table. -/
theorem sampleWordsDecode : Obligations.SampleWordsDecode :=
  ⟨assemble_decodes (i := .rd 0) (by decide), assemble_decodes (i := .rd 3) (by decide),
    assemble_decodes (i := .rd 9) (by decide), assemble_decodes (i := .rd 13) (by decide),
    assemble_decodes (i := .wrma 1) (by decide), assemble_decodes (i := .wrma 4) (by decide),
    assemble_decodes (i := .wrma 0) (by decide), assemble_decodes (i := .setf 0b001) (by decide),
    assemble_decodes (i := .setf 0b010) (by decide), assemble_decodes (i := .clrf 0b100) (by decide),
    assemble_decodes (i := .clrf 0b111) (by decide), assemble_decodes (i := .blink 0b001) (by decide),
    assemble_decodes (i := .blink 0b101) (by decide), assemble_decodes (i := .hdone) (by decide),
    assemble_decodes (i := .tick) (by decide), assemble_decodes (i := .btn) (by decide)⟩

/-- Settles O7: the schedule's first entry is taken off, and the port's decoder or the pin names the operation. -/
theorem stepRunsDecodedOperation : Obligations.StepRunsDecodedOperation := by
  refine ⟨fun s w i rest hi hd => ?_, fun s rest hi => ?_, fun s rest hi => ?_⟩
  · rw [step_command hi, runCommand_ok hd]
  · rw [step_tick hi, exec_tick]
  · rw [step_button hi, exec_btn]

end Sys2Proof.Machine
end

section
/-! SUPPORT. The two producers (40_tick_source.md R100, R105, R107 to R109): what TICK and BTN write, field by field, and the step they
give a waiting Sequencer. -/

namespace Sys2Proof.Machine

section
variable (c : Config) (s : State)

/-- TICK counts outside HALT (R100). -/
theorem tick_tickcnt (h : s.seq ≠ .halt) : (tick c s).tickcnt = s.tickcnt + 1 := by rw [tick_of_not_halt s c h]

/-- TICK counts COUNTDOWN down outside HALT (R102). -/
theorem tick_countdown (h : s.seq ≠ .halt) : (tick c s).countdown = countdownTick s.countdown := by rw [tick_of_not_halt s c h]

/-- TICK sets its bits outside HALT (R100). -/
theorem tick_eventmask (h : s.seq ≠ .halt) : (tick c s).eventmask = setBits s.eventmask (tickBits c (s.tickcnt + 1)) := by
  rw [tick_of_not_halt s c h]

/-- BTN reloads COUNTDOWN outside HALT (R105). -/
theorem btn_countdown (h : s.seq ≠ .halt) : (btn c s).countdown = c.displayHold := by rw [btn_of_not_halt s c h]

/-- BTN sets its two flags outside HALT (R105). -/
theorem btn_flagmask (h : s.seq ≠ .halt) : (btn c s).flagmask = setBits s.flagmask (flDisplayActive ||| flButtonPressed) := by
  rw [btn_of_not_halt s c h]

/-- TICK writes TICKCNT, COUNTDOWN and EVENTMASK, and no other field (R100, R108). -/
theorem tick_frame :
    tick c s = { s with
      tickcnt := (tick c s).tickcnt, countdown := (tick c s).countdown, eventmask := (tick c s).eventmask } := by
  unfold tick; split <;> rfl

/-- BTN writes FLAGMASK and COUNTDOWN, and no other field (R105, R108). -/
theorem btn_frame : btn c s = { s with countdown := (btn c s).countdown, flagmask := (btn c s).flagmask } := by
  unfold btn; split <;> rfl

/-- TICK sets EVENTMASK bit 0 whatever the counter holds (R100, R109). -/
theorem tick_eventmask_ne_zero (h : s.seq ≠ .halt) : (tick c s).eventmask ≠ 0 := by
  intro h0
  have hbit : (tick c s).eventmask.getLsbD 0 = true := by simp [tick_eventmask c s h, getLsbD_tickBits]
  simp [h0] at hbit

/-- BTN sets FLAGMASK bit 0 (R105, R109). -/
theorem btn_flagmask_ne_zero (h : s.seq ≠ .halt) : (btn c s).flagmask ≠ 0 := by
  intro h0
  have hbit : (btn c s).flagmask.getLsbD 0 = true := by rw [btn_flagmask c s h, getLsbD_setBits, getLsbD_buttonBits]; simp
  simp [h0] at hbit

/-- The idle check passes as soon as either mask holds a bit (R120). -/
theorem sequencerStep_of_work (hq : s.seq = .idle) (hw : s.eventmask ≠ 0 ∨ s.flagmask ≠ 0) :
    sequencerStep c s = some (gotoSeq .s1Mode s) := by
  have hp : workPending s = true := by simpa [workPending] using hw
  simp [sequencerStep, hq, hp]

/-- A waiting Sequencer with work has its step to S1_MODE (R109, R120). -/
theorem step_sequencer_wakes (rest : List Input) (hq : s.seq = .idle) (hw : s.eventmask ≠ 0 ∨ s.flagmask ≠ 0) :
    step { s with inputs := .sequencer :: rest } = .next { s with seq := .s1Mode, inputs := rest } :=
  step_sequencer_of_some rfl (sequencerStep_of_work config { s with inputs := rest } hq hw)

end

/-- Settles O9: TICK's three writes, and the rest by its frame. -/
theorem tickEffect : Obligations.TickEffect := by
  refine ⟨by decide, fun s hs => ⟨_, exec_tick s, ?_, ?_, fun i => ?_, tick_frame config s⟩, fun s hs => ?_⟩
  · simp [tick_tickcnt config s hs]
  · rw [tick_countdown config s hs, countdownTick_toNat]
  · rw [tick_eventmask config s hs, tick_tickcnt config s hs, getLsbD_setBits, getLsbD_tickBits]
    simp only [Bool.or_assoc]
  · rw [exec_tick, tick_of_halt s config hs]

/-- Settles O13: the two branches of BTN. -/
theorem btnEffect : Obligations.BtnEffect := by
  refine ⟨by decide, fun s hs => ?_, fun s hs => ?_⟩
  · rw [exec_btn, btn_of_not_halt s config hs]; rfl
  · rw [exec_btn, btn_of_halt s config hs]

/-- Settles O16: each producer only sets bits in one mask, and that mask is what the idle check reads. -/
theorem producersOnlySetAndWake : Obligations.ProducersOnlySetAndWake := by
  refine ⟨?_, ?_, ?_, ?_⟩
  · rintro s t i (rfl | rfl) h
    · cases h
      refine ⟨fun b hb => ?_, fun b hb => by rwa [tick_flagmask], ?_⟩
      · rcases tick_eventmask_cases config s with he | he <;> simp [he, hb]
      · rw [tick_flagmask]; exact tick_frame config s
    · cases h
      refine ⟨fun b hb => by rwa [btn_eventmask], fun b hb => ?_, ?_⟩
      · rcases btn_flagmask_cases config s with he | he <;> simp [he, hb]
      · rw [btn_tickcnt, btn_eventmask]; exact btn_frame config s
  · intro s t hs h
    cases h
    exact tick_eventmask_ne_zero config s hs
  · intro s t hs h
    cases h
    exact btn_flagmask_ne_zero config s hs
  · rintro s t i rest (rfl | rfl) hq h
    · cases h
      exact step_sequencer_wakes _ rest ((tick_seq s config).trans hq) (.inl (tick_eventmask_ne_zero config s (by simp [hq])))
    · cases h
      exact step_sequencer_wakes _ rest ((btn_seq s config).trans hq) (.inr (btn_flagmask_ne_zero config s (by simp [hq])))

end Sys2Proof.Machine
end

section
/-! SUPPORT. HALT, TICKCNT and COUNTDOWN under a step: every way a step can change them, said once (40_tick_source.md R101, R102, R107;
41_dispatch_sequencer.md R135). -/

namespace Sys2Proof.Machine

/-- No command enters HALT or leaves it: it keeps SEQ, or closes a window. -/
theorem runCommand_halt_iff {w : Word} {s t : State} (h : runCommand w s = .next t) : t.seq = .halt ↔ s.seq = .halt := by
  rcases runCommand_cases h with ⟨c, rfl⟩ | ⟨v, rfl⟩ |
    ⟨hq, ⟨m, tag, -, -, rfl⟩ | ⟨m, -, rfl⟩ | ⟨m, -, rfl⟩ | ⟨m, -, rfl⟩ | ⟨-, rfl⟩⟩
  · rfl
  · rfl
  · rfl
  · rfl
  · rfl
  · rfl
  · rcases (isWindow_iff _).1 hq with hw | hw <;> simp [closeWindow, afterWindow, hw]

/-- The Sequencer has no step in HALT (R135). -/
theorem not_halt_of_sequencerStep {c : Config} {s t : State} (h : sequencerStep c s = some t) : s.seq ≠ .halt := by
  intro hs
  simp [(sequencerStep_eq_none c s).2 (.inr (.inr (.inr hs)))] at h

/-- Only reset enters HALT or leaves it (R107, R135). -/
theorem step_halt_cases {s t : State} (h : step s = .next t) :
    (t.seq = .halt ↔ s.seq = .halt) ∨ ∃ b rest, s.inputs = .reset b :: rest ∧ t.seq = State.bootSeq config b := by
  obtain ⟨p, ⟨r, rfl⟩, ⟨-, -, rfl⟩ | ⟨-, rfl⟩ | ⟨-, rfl⟩ | ⟨w, -, hc⟩ | ⟨-, hq⟩ | ⟨-, b, rest, hi, rfl⟩⟩ := step_inversion h
  · exact .inl .rfl
  · exact .inl (by rw [tick_seq])
  · exact .inl (by rw [btn_seq])
  · exact .inl (runCommand_halt_iff hc :)
  · exact .inl (iff_of_false (sequencerStep_not_halt hq) (not_halt_of_sequencerStep hq :))
  · exact .inr ⟨b, rest, hi, rfl⟩

/-- A step that is no reset stays in HALT, or out of it. -/
theorem step_halt_iff {s t : State} (h : step s = .next t) (hr : resetNext s = false) : t.seq = .halt ↔ s.seq = .halt := by
  rcases step_halt_cases h with hiff | ⟨b, rest, hi, -⟩
  · exact hiff
  · simp [resetNext, hi] at hr

/-- Settles O15: the steps in HALT, and the two ways across its border. -/
theorem haltLeftOnlyByReset : Obligations.HaltLeftOnlyByReset := by
  refine ⟨fun s hs => ⟨?_, ?_, ?_⟩, fun s t h hs hr => (step_halt_iff h hr).2 hs, fun s t h ht => ?_⟩
  · rw [exec_tick, tick_of_halt s config hs]
  · rw [exec_btn, btn_of_halt s config hs]
  · exact (sequencerStep_eq_none config s).2 (.inr (.inr (.inr hs)))
  · rcases step_halt_cases h with hiff | ⟨b, rest, hi, hq⟩
    · exact .inl (hiff.1 ht)
    · exact .inr ⟨b, rest, hi, (bootSeq_eq_halt_iff config b).1 (hq.symm.trans ht)⟩

/-! ### One step of TICKCNT and COUNTDOWN -/

theorem not_pinNext_of_command {s : State} {w : Word} (h : commandNext s w) (p : Pin) : ¬ pinNext s p := by
  rintro ⟨rest, hi⟩
  obtain ⟨rest', hi'⟩ := h
  simp [hi] at hi'

theorem not_pinNext_of_sequencer {s : State} (h : sequencerNext s = true) (p : Pin) : ¬ pinNext s p := by
  rintro ⟨rest, hi⟩
  simp [sequencerNext, hi] at h

theorem not_tickNext_of_button {s : State} (h : pinNext s .button) : ¬ pinNext s .tick := by
  rintro ⟨rest, hi⟩
  obtain ⟨rest', hi'⟩ := h
  simp [hi] at hi'

/-- TICK does not read the schedule. -/
theorem tick_with_inputs (c : Config) (s : State) (r : List Input) :
    tick c { s with inputs := r } = { tick c s with inputs := r } := by
  unfold tick; split <;> rfl

/-- BTN does not read the schedule. -/
theorem btn_with_inputs (c : Config) (s : State) (r : List Input) :
    btn c { s with inputs := r } = { btn c s with inputs := r } := by
  unfold btn; split <;> rfl

/-- Only a TICK and a reset write TICKCNT (R101). -/
theorem step_tickcnt_cases {s t : State} (h : step s = .next t) :
    (pinNext s .tick ∧ t.tickcnt = (tick config s).tickcnt) ∨ (¬ pinNext s .tick ∧ t.tickcnt = s.tickcnt) ∨
      resetNext s = true := by
  obtain ⟨p, ⟨r, rfl⟩, ⟨hi, -, rfl⟩ | ⟨hp, rfl⟩ | ⟨hp, rfl⟩ | ⟨w, hw, hc⟩ | ⟨hn, hq⟩ | ⟨hr, -⟩⟩ := step_inversion h
  · exact .inr (.inl ⟨not_pinNext_of_sequencer (by simp [sequencerNext, hi]) _, rfl⟩)
  · exact .inl ⟨hp, by rw [tick_with_inputs]⟩
  · exact .inr (.inl ⟨not_tickNext_of_button hp, btn_tickcnt _ config⟩)
  · exact .inr (.inl ⟨not_pinNext_of_command hw _, (runCommand_frame hc).1⟩)
  · exact .inr (.inl ⟨not_pinNext_of_sequencer hn _, (sequencerStep_frame hq).1⟩)
  · exact .inr (.inr hr)

@[simp] theorem tickSlot_countdown (s : State) : (tickSlot s).countdown = s.countdown := by unfold tickSlot; split <;> rfl

/-- The only slot that writes COUNTDOWN is S1_MODE, which reloads it when it commits a transition (R122). -/
theorem sequencerStep_countdown {c : Config} {s t : State} (h : sequencerStep c s = some t) :
    t.countdown = s.countdown ∨ (s.seq = .s1Mode ∧ transitionDue s = true ∧ t.countdown = c.displayHold) := by
  rcases sequencerStep_cases h with ⟨-, -, rfl⟩ | ⟨hq, rfl⟩ | ⟨-, rfl⟩ | ⟨-, rfl⟩ | ⟨-, rfl⟩ | ⟨-, rfl⟩ | ⟨-, rfl⟩
  · exact .inl rfl
  · cases hd : transitionDue s with
    | true => exact .inr ⟨hq, rfl, by rw [modeSlot_of_due c s hd]; rfl⟩
    | false => exact .inl (by rw [modeSlot_of_not_due c s hd]; rfl)
  · exact .inl (tickSlot_countdown s)
  all_goals exact .inl rfl

/-- The next step commits a transition (R122). -/
def CommitNext (s : State) : Prop := s.seq = .s1Mode ∧ sequencerNext s = true ∧ s.modeAdv ≠ .none ∧ s.modeAdv ≠ s.mode

/-- Every way a step can write COUNTDOWN: a TICK, a reload by BTN or by a committed transition, a reset (R23, R102). -/
theorem step_countdown_cases {s t : State} (h : step s = .next t) :
    (pinNext s .tick ∧ t.countdown = (tick config s).countdown) ∨ (¬ pinNext s .tick ∧ t.countdown = s.countdown) ∨
      ((pinNext s .button ∨ CommitNext s) ∧ t.countdown = config.displayHold) ∨ (resetNext s = true ∧ t.countdown = 0) := by
  obtain ⟨p, ⟨r, rfl⟩, ⟨hi, -, rfl⟩ | ⟨hp, rfl⟩ | ⟨hp, rfl⟩ | ⟨w, hw, hc⟩ | ⟨hn, hq⟩ | ⟨hr, b, rest, -, rfl⟩⟩ := step_inversion h
  · exact .inr (.inl ⟨not_pinNext_of_sequencer (by simp [sequencerNext, hi]) _, rfl⟩)
  · exact .inl ⟨hp, by rw [tick_with_inputs]⟩
  · by_cases hs : s.seq = .halt
    · exact .inr (.inl ⟨not_tickNext_of_button hp, by rw [btn_of_halt { s with inputs := r } config hs]⟩)
    · exact .inr (.inr (.inl ⟨.inl hp, btn_countdown config _ hs⟩))
  · obtain ⟨-, hcount, -⟩ := runCommand_frame hc
    exact .inr (.inl ⟨not_pinNext_of_command hw _, hcount⟩)
  · rcases sequencerStep_countdown hq with hcount | ⟨hs, hd, hcount⟩
    · exact .inr (.inl ⟨not_pinNext_of_sequencer hn _, hcount⟩)
    · exact .inr (.inr (.inl ⟨.inr ⟨hs, hn, (transitionDue_iff _).1 hd⟩, hcount⟩))
  · exact .inr (.inr (.inr ⟨hr, rfl⟩))

end Sys2Proof.Machine
end

section
/-! SUPPORT. TICKCNT and COUNTDOWN over a run (40_tick_source.md R101, R102): what every step does once per TICK, a run does as often as
TICKs are scheduled. -/

namespace Sys2Proof.Machine

/-- `P` holds of each state that one of the first `n` steps of the run from `s` leaves. -/
def AlongRun (P : State → Prop) (n : Nat) (s : State) : Prop := ∀ (k : Nat) (u : State), k < n → core.run k s = .next u → P u

theorem AlongRun.head {P : State → Prop} {n : Nat} {s : State} (h : AlongRun P (n + 1) s) : P s := h 0 s n.succ_pos rfl

theorem AlongRun.tail {P : State → Prop} {n : Nat} {s t : State} (h : AlongRun P (n + 1) s) (hs : step s = .next t) :
    AlongRun P n t :=
  fun k u hk hu => h (k + 1) u (by omega) (by rw [run_succ_of_next hs]; exact hu)

/-- A run takes its steps from the schedule, one by one. -/
theorem run_inputs {n : Nat} {s t : State} (h : core.run n s = .next t) : t.inputs = s.inputs.drop n := by
  induction n generalizing s with
  | zero => cases h; rfl
  | succ n ih =>
    obtain ⟨u, hu, ht⟩ := run_succ_inversion h
    rw [ih ht, step_inputs hu, List.drop_tail]

/-- A step that is not among the first `n` scheduled ones is not taken among the first `n`. -/
theorem alongRun_not_next {n : Nat} {s : State} {m : Input} (h : m ∉ s.inputs.take n) :
    AlongRun (fun u => ∀ rest, u.inputs ≠ m :: rest) n s := by
  intro k u hk hu rest hi
  have hget : s.inputs[k]? = some m := by
    rw [← List.head?_drop, ← run_inputs hu, hi]; rfl
  exact h (List.mem_of_getElem? (i := k) (by rw [List.getElem?_take_of_lt hk, hget]))

theorem resetNext_iff (s : State) : resetNext s = true ↔ ∃ b rest, s.inputs = .reset b :: rest := by
  unfold resetNext
  split <;> simp_all

/-- A schedule without a reset. -/
theorem alongRun_not_reset {n : Nat} {s : State} (h : ∀ b, Input.reset b ∉ s.inputs.take n) :
    AlongRun (fun u => resetNext u = false) n s := by
  intro k u hk hu
  rw [Bool.eq_false_iff, ne_eq, resetNext_iff]
  rintro ⟨b, rest, hi⟩
  exact alongRun_not_next (h b) k u hk hu rest hi

/-- The TICKs among the first `n` scheduled steps. -/
def ticksTaken (n : Nat) (s : State) : Nat := (s.inputs.take n).count (.pin .tick)

theorem ticksTaken_one_of_tick {s : State} (h : pinNext s .tick) : ticksTaken 1 s = 1 := by
  obtain ⟨rest, hi⟩ := h
  simp [ticksTaken, hi]

theorem ticksTaken_one_of_not_tick {s : State} (h : ¬ pinNext s .tick) : ticksTaken 1 s = 0 := by
  refine List.count_eq_zero.2 fun hmem => h ?_
  cases hi : s.inputs with
  | nil => simp [hi] at hmem
  | cons m rest =>
    obtain rfl : .pin .tick = m := by simpa [hi] using hmem
    exact ⟨rest, hi⟩

theorem ticksTaken_succ {s t : State} (h : step s = .next t) (n : Nat) :
    ticksTaken (n + 1) s = ticksTaken n t + ticksTaken 1 s := by
  rw [ticksTaken, Nat.add_comm n 1, List.take_add, List.count_append, List.drop_one, ← step_inputs h, Nat.add_comm]; rfl

/-- What a step that is no reset does once per TICK, outside HALT, a run does once per TICK. -/
theorem run_iterates {α : Type} {val : State → α} {f : α → α} {P : State → Prop}
    (hstep : ∀ s t, s.seq ≠ .halt → resetNext s = false → P s → step s = .next t → val t = f^[ticksTaken 1 s] (val s))
    {n : Nat} {s t : State} (hs : s.seq ≠ .halt) (hreset : AlongRun (fun u => resetNext u = false) n s) (hP : AlongRun P n s)
    (h : core.run n s = .next t) : val t = f^[ticksTaken n s] (val s) := by
  induction n generalizing s with
  | zero => cases h; rfl
  | succ n ih =>
    obtain ⟨u, hu, ht⟩ := run_succ_inversion h
    have hu' : u.seq ≠ .halt := fun hq => hs ((step_halt_iff hu hreset.head).1 hq)
    rw [ih hu' (hreset.tail hu) (hP.tail hu) ht, hstep s u hs hreset.head hP.head hu, ticksTaken_succ hu n,
      Function.iterate_add_apply]

/-! ### The TickCounter law -/

/-- `k` increments of an 8-bit counter. -/
theorem increment_iterate_toNat (x : Byte) (k : Nat) : ((· + 1)^[k] x).toNat = (x.toNat + k) % 256 := by
  induction k with
  | zero => exact (Nat.mod_eq_of_lt x.isLt).symm
  | succ k ih => rw [Function.iterate_succ_apply', BitVec.toNat_add, ih, ← Nat.add_assoc]; exact Nat.mod_add_mod _ _ _

theorem step_tickcnt {s t : State} (hs : s.seq ≠ .halt) (hr : resetNext s = false) (h : step s = .next t) :
    t.tickcnt = (· + 1)^[ticksTaken 1 s] s.tickcnt := by
  rcases step_tickcnt_cases h with ⟨hp, ht⟩ | ⟨hp, ht⟩ | hreset
  · rw [ticksTaken_one_of_tick hp, ht, tick_tickcnt config s hs]; rfl
  · rw [ticksTaken_one_of_not_tick hp, ht]; rfl
  · simp [hr] at hreset

/-- TICKCNT counts the TICKs of a run, modulo 256 (R101). -/
theorem run_tickcnt {n : Nat} {s t : State} (hs : s.seq ≠ .halt) (hr : ∀ b, Input.reset b ∉ s.inputs.take n)
    (h : core.run n s = .next t) : t.tickcnt.toNat = (s.tickcnt.toNat + ticksTaken n s) % 256 := by
  rw [run_iterates (val := State.tickcnt) (f := (· + 1)) (P := fun _ => True) (fun s t hs hr _ => step_tickcnt hs hr) hs
    (alongRun_not_reset hr) (fun _ _ _ _ => trivial) h, increment_iterate_toNat]

/-- Settles O10: the count over a run, HALT, and the only two writers. -/
theorem tickCounterLaw : Obligations.TickCounterLaw := by
  refine ⟨fun n s t hs hr h => run_tickcnt hs hr h, fun s t hs h => ?_, fun s t h hne => ?_⟩
  · rw [exec_tick, tick_of_halt s config hs] at h
    cases h
    rfl
  · rcases step_tickcnt_cases h with ⟨hp, ht⟩ | ⟨-, ht⟩ | hr
    · have hs : s.seq ≠ .halt := fun hs => hne (by rw [ht, tick_of_halt s config hs])
      exact .inr ⟨hp, hs, ht.trans (tick_tickcnt config s hs)⟩
    · exact absurd ht hne
    · exact .inl hr

/-! ### The Countdown law -/

/-- `k` ticks of COUNTDOWN: down to 1 and no further, and 0 stays 0 (R102). -/
theorem countdownTick_iterate_toNat (n : Word) (k : Nat) :
    (countdownTick^[k] n).toNat = if n = 0 then 0 else max 1 (n.toNat - k) := by
  have hzero : n = 0 ↔ n.toNat = 0 := by rw [← BitVec.toNat_inj]; rfl
  simp only [hzero]
  induction k with
  | zero => rw [Function.iterate_zero_apply]; split <;> omega
  | succ k ih =>
    rw [Function.iterate_succ_apply', countdownTick_toNat, ih]
    by_cases h0 : n.toNat = 0
    · simp [h0]
    · simp only [h0, if_false]; split <;> omega

theorem countdownTick_eq_zero {n : Word} (h : countdownTick n = 0) : n = 0 := by
  by_contra hn
  have hone := countdownTick_iterate_toNat n 1
  rw [Function.iterate_one, h, if_neg hn] at hone
  simp at hone; omega

/-- The next step is no reload of COUNTDOWN (R102). -/
def NoReloadNext (s : State) : Prop := ¬ pinNext s .button ∧ ¬ CommitNext s

theorem step_countdown {s t : State} (hs : s.seq ≠ .halt) (hr : resetNext s = false) (hn : NoReloadNext s)
    (h : step s = .next t) : t.countdown = countdownTick^[ticksTaken 1 s] s.countdown := by
  obtain ⟨hb, hc⟩ := hn
  rcases step_countdown_cases h with ⟨hp, ht⟩ | ⟨hp, ht⟩ | ⟨hload | hload, -⟩ | ⟨hreset, -⟩
  · rw [ticksTaken_one_of_tick hp, ht, tick_countdown config s hs]; rfl
  · rw [ticksTaken_one_of_not_tick hp, ht]; rfl
  · exact absurd hload hb
  · exact absurd hload hc
  · simp [hr] at hreset

/-- COUNTDOWN over a run without a reload (R102). -/
theorem run_countdown {n : Nat} {s t : State} (hs : s.seq ≠ .halt) (hr : ∀ b, Input.reset b ∉ s.inputs.take n)
    (hb : .pin .button ∉ s.inputs.take n) (hc : AlongRun (fun u => ¬ CommitNext u) n s) (h : core.run n s = .next t) :
    t.countdown.toNat = if s.countdown = 0 then 0 else max 1 (s.countdown.toNat - ticksTaken n s) := by
  have hload : AlongRun NoReloadNext n s := fun k u hk hu =>
    ⟨fun ⟨rest, hi⟩ => alongRun_not_next hb k u hk hu rest hi, hc k u hk hu⟩
  rw [run_iterates (fun _ _ => step_countdown) hs (alongRun_not_reset hr) hload h, countdownTick_iterate_toNat]

/-- Settles O11: the countdown over a run, and the writers that can leave 0. -/
theorem countdownLaw : Obligations.CountdownLaw := by
  refine ⟨fun n s t hs hr hb hc h => ⟨fun h1 => ?_, fun h0 => ?_⟩, fun s t h h0 => ?_⟩
  · have hne : s.countdown ≠ 0 := fun h0 => by simp [h0] at h1
    rw [run_countdown hs hr hb hc h, if_neg hne]; rfl
  · exact BitVec.eq_of_toNat_eq (by rw [run_countdown hs hr hb hc h, if_pos h0]; rfl)
  · rcases step_countdown_cases h with ⟨-, ht⟩ | ⟨-, ht⟩ | ⟨-, ht⟩ | ⟨hr, -⟩
    · by_cases hs : s.seq = .halt
      · exact .inl (by rw [← h0, ht, tick_of_halt s config hs])
      · exact .inl (countdownTick_eq_zero (by rw [← tick_countdown config s hs, ← ht, h0]))
    · exact .inl (ht.symm.trans h0)
    · exact .inr (.inr (ht.symm.trans h0))
    · exact .inr (.inl hr)

end Sys2Proof.Machine
end

section
/-! SUPPORT. Runs of the pins alone (40_tick_source.md R103, R104, R106): they always complete, and leave SEQ where it is. -/

namespace Sys2Proof.Machine

/-- The pins run from any state, whatever comes after them, and do not move the Sequencer. -/
theorem run_pins {pins : List Pin} {s : State} {rest : List Input} (hi : s.inputs = pins.map .pin ++ rest) :
    ∃ t : State, core.run pins.length s = .next t ∧ t.seq = s.seq ∧ t.inputs = rest := by
  induction pins generalizing s with
  | nil => exact ⟨s, rfl, rfl, hi⟩
  | cons p pins ih =>
    obtain ⟨u, hu, hseq⟩ : ∃ u, step s = .next u ∧ u.seq = s.seq := by
      cases p with
      | tick => exact ⟨_, step_tick hi, tick_seq _ config⟩
      | button => exact ⟨_, step_button hi, btn_seq _ config⟩
    obtain ⟨t, ht, htseq, hrest⟩ := ih (s := u) (by rw [step_inputs hu, hi]; rfl)
    exact ⟨t, by rw [List.length_cons, run_succ_of_next hu, ht], htseq.trans hseq, hrest⟩

/-- `k` TICKs in a row. -/
theorem run_ticks {k : Nat} {s : State} {rest : List Input} (hi : s.inputs = List.replicate k (.pin .tick) ++ rest) :
    ∃ t : State, core.run k s = .next t ∧ t.seq = s.seq ∧ t.inputs = rest := by
  simpa using run_pins (pins := List.replicate k .tick) (by rw [hi, List.map_replicate])

section
variable {k n : Nat} {s : State} {rest : List Input} (hi : s.inputs = List.replicate n (.pin .tick) ++ rest) (hk : k ≤ n)
include hi hk

/-- The first `k` of `n` TICKs. -/
theorem take_of_ticks : s.inputs.take k = List.replicate k (.pin .tick) := by
  rw [hi, List.take_append_of_le_length (by simpa using hk), List.take_replicate, Nat.min_eq_left hk]

theorem ticksTaken_of_ticks : ticksTaken k s = k := by
  rw [ticksTaken, take_of_ticks hi hk, List.count_replicate_self]

theorem not_reset_of_ticks (b : Byte) : Input.reset b ∉ s.inputs.take k := by
  simp [take_of_ticks hi hk]

end

/-! ### Repeated button edges -/

/-- A second edge finds nothing left to write (R106). -/
theorem btn_btn (c : Config) (s : State) : btn c (btn c s) = btn c s := by
  by_cases hs : s.seq = .halt
  · rw [btn_of_halt s c hs, btn_of_halt s c hs]
  · rw [btn_of_not_halt (btn c s) c (by rwa [btn_seq]), btn_of_not_halt s c hs]
    simp only [setBits_setBits]

/-- Any number of edges in a row do what one does (R106). -/
theorem run_buttons (n : Nat) (s : State) (rest : List Input) :
    core.run (n + 1) { s with inputs := List.replicate (n + 1) (.pin .button) ++ rest } =
      .next (btn config { s with inputs := rest }) := by
  induction n generalizing s with
  | zero => rfl
  | succ n ih =>
    have hstep : step { s with inputs := List.replicate (n + 2) (.pin .button) ++ rest } =
        .next { btn config s with inputs := List.replicate (n + 1) (.pin .button) ++ rest } := by
      rw [← btn_with_inputs]; exact step_button rfl
    rw [run_succ_of_next hstep, ih (btn config s), ← btn_with_inputs, btn_btn]

/-- TICKs alone reload nothing: COUNTDOWN only counts them (R102). -/
theorem run_ticks_countdown {k : Nat} {s t : State} {rest : List Input} (hs : s.seq ≠ .halt)
    (hi : s.inputs = List.replicate k (.pin .tick) ++ rest) (h : core.run k s = .next t) :
    t.countdown.toNat = if s.countdown = 0 then 0 else max 1 (s.countdown.toNat - k) := by
  have hcommit : AlongRun (fun u => ¬ CommitNext u) k s := by
    rintro j u hj hu ⟨-, hn, -⟩
    have htick : pinNext u .tick := by
      obtain ⟨m, hm⟩ : ∃ m, k - j = m + 1 := ⟨k - j - 1, by omega⟩
      refine ⟨List.replicate m (.pin .tick) ++ rest, ?_⟩
      rw [run_inputs hu, hi, List.drop_append_of_le_length (by simp; omega), List.drop_replicate, hm]
      rfl
    exact not_pinNext_of_sequencer hn _ htick
  rw [run_countdown hs (not_reset_of_ticks hi le_rfl) (by simp [take_of_ticks hi le_rfl]) hcommit h,
    ticksTaken_of_ticks hi le_rfl]

/-- Settles O14: the run of edges, and the run of pins to the last edge, that edge, and the TICKs after it. -/
theorem repeatedButtonEdges : Obligations.RepeatedButtonEdges := by
  refine ⟨fun n s rest => by rw [run_buttons]; rfl, fun s before k rest hs hi => ?_⟩
  obtain ⟨u, hu, hseq, hrest⟩ := run_pins hi
  obtain ⟨v, hedge, hload, hvs, hticks⟩ : ∃ v, step u = .next v ∧ v.countdown = config.displayHold ∧ v.seq ≠ .halt ∧
      v.inputs = List.replicate k (.pin .tick) ++ rest := by
    rw [← hseq] at hs
    exact ⟨_, step_button hrest, btn_countdown config _ hs, by rwa [btn_seq], btn_inputs _ config⟩
  obtain ⟨t, ht, -, -⟩ := run_ticks hticks
  refine ⟨t, ?_, ?_⟩
  · rw [Nat.add_assoc, run_add hu, Nat.add_comm 1 k, run_succ_of_next hedge, ht]
  · rw [run_ticks_countdown hvs hticks ht, hload]

/-! ### The poll events -/

/-- TICK number `j` of the run from `s` sets bit `b`: the bit is 1 after that TICK runs with EVENTMASK empty (R103, R104). -/
def TickSets (b : Nat) (s : State) (j : Nat) : Prop :=
  ∃ u t, core.run j s = .next u ∧ exec .tick { u with eventmask := 0 } = .next t ∧ t.eventmask.getLsbD b = true

section
variable {j n : Nat} {s : State} {rest : List Input} (hs : s.seq ≠ .halt)
  (hi : s.inputs = List.replicate n (.pin .tick) ++ rest) (hj : j < n)
include hs hi hj

/-- TICK number `j` sets its bits by the counter `j + 1` increments on. -/
theorem tickSets_iff (b : Nat) :
    TickSets b s j ↔ (tickBits config (BitVec.ofNat 8 (s.tickcnt.toNat + j + 1))).getLsbD b = true := by
  have hsplit : s.inputs = List.replicate j (.pin .tick) ++ (List.replicate (n - j) (.pin .tick) ++ rest) := by
    rw [hi, ← List.append_assoc, List.replicate_append_replicate, Nat.add_sub_cancel' hj.le]
  obtain ⟨u, hu, hseq, -⟩ := run_ticks hsplit
  have hcount : u.tickcnt + 1 = BitVec.ofNat 8 (s.tickcnt.toNat + j + 1) := by
    apply BitVec.eq_of_toNat_eq
    rw [BitVec.toNat_add, run_tickcnt hs (not_reset_of_ticks hi hj.le) hu, ticksTaken_of_ticks hi hj.le]
    simp
  have hmask : (tick config { u with eventmask := 0 }).eventmask.getLsbD b = (tickBits config (u.tickcnt + 1)).getLsbD b := by
    rw [tick_eventmask config { u with eventmask := 0 } (by rwa [hseq])]; simp
  rw [← hcount, ← hmask]
  constructor
  · rintro ⟨u', t, hu', ht, hb⟩
    obtain rfl : u = u' := by rw [hu] at hu'; cases hu'; rfl
    rw [exec_tick] at ht
    cases ht
    exact hb
  · exact fun hb => ⟨u, _, hu, exec_tick _, hb⟩

/-- SHORT_POLL: the counter's low four bits are 0 (R103). -/
theorem tickSets_shortPoll_iff : TickSets 1 s j ↔ (s.tickcnt.toNat + j + 1) % 16 = 0 := by
  rw [tickSets_iff hs hi hj, getLsbD_tickBits]
  simp

/-- LONG_POLL: the counter equals LONG_POLL_MATCH (R104). -/
theorem tickSets_longPoll_iff : TickSets 2 s j ↔ (s.tickcnt.toNat + j + 1) % 256 = config.longPollMatch.toNat := by
  rw [tickSets_iff hs hi hj, getLsbD_tickBits]
  simp [← BitVec.toNat_inj]

end

/-- One of 16 TICKs in a row sets SHORT_POLL (R103). -/
theorem existsUnique_shortPoll {s : State} {rest : List Input} (hs : s.seq ≠ .halt)
    (hi : s.inputs = List.replicate 16 (.pin .tick) ++ rest) : ∃! k, k < 16 ∧ TickSets 1 s k := by
  refine ⟨15 - s.tickcnt.toNat % 16, ⟨by omega, (tickSets_shortPoll_iff hs hi (by omega)).2 (by omega)⟩, ?_⟩
  rintro j ⟨hj, hset⟩
  have := (tickSets_shortPoll_iff hs hi hj).1 hset
  omega

/-- One of 256 TICKs in a row sets LONG_POLL (R104). -/
theorem existsUnique_longPoll {s : State} {rest : List Input} (hs : s.seq ≠ .halt)
    (hi : s.inputs = List.replicate 256 (.pin .tick) ++ rest) : ∃! k, k < 256 ∧ TickSets 2 s k := by
  have hcnt := s.tickcnt.isLt
  have hmatch := config.longPollMatch.isLt
  refine ⟨(255 + config.longPollMatch.toNat - s.tickcnt.toNat) % 256,
    ⟨by omega, (tickSets_longPoll_iff hs hi (by omega)).2 (by omega)⟩, ?_⟩
  rintro j ⟨hj, hset⟩
  have := (tickSets_longPoll_iff hs hi hj).1 hset
  omega

/-- Settles O12: both bits are set when the counter meets a fixed residue. -/
theorem pollEventsArePeriodic : Obligations.PollEventsArePeriodic :=
  ⟨fun _ _ hs hi => existsUnique_shortPoll hs hi, fun _ _ hs hi => existsUnique_longPoll hs hi⟩

end Sys2Proof.Machine
end

section
/-! SUPPORT. The slots as the Sequencer takes them (41_dispatch_sequencer.md R120 to R131): the step that SEQ names, and each slot's
whole next state. -/

namespace Sys2Proof.Machine

section
variable {s : State} (c : Config)

theorem sequencerStep_of_s1Mode (h : s.seq = .s1Mode) : sequencerStep c s = some (modeSlot c s) := by simp only [sequencerStep, h]

theorem sequencerStep_of_s2Tick (h : s.seq = .s2Tick) : sequencerStep c s = some (tickSlot s) := by simp only [sequencerStep, h]

theorem sequencerStep_of_s3Blink (h : s.seq = .s3Blink) : sequencerStep c s = some (blinkSlot c s) := by
  simp only [sequencerStep, h]

theorem sequencerStep_of_s4Poll (h : s.seq = .s4Poll) : sequencerStep c s = some (pollSlot s) := by simp only [sequencerStep, h]

theorem sequencerStep_of_s5Clear (h : s.seq = .s5Clear) : sequencerStep c s = some (clearSlot s) := by simp only [sequencerStep, h]

theorem sequencerStep_of_s6Render (h : s.seq = .s6Render) : sequencerStep c s = some (renderSlot s) := by
  simp only [sequencerStep, h]

end

theorem transitionDue_eq_false_iff (s : State) : transitionDue s = false ↔ s.modeAdv = .none ∨ s.modeAdv = s.mode := by
  rw [Bool.eq_false_iff, ne_eq, transitionDue_iff]
  tauto

/-- S2_TICK with TICK set and a mode to dispatch to (R127). -/
theorem tickSlot_of_dispatch {s : State} (hbit : s.eventmask.getLsbD 0 = true) (hm : s.mode ≠ .none) :
    tickSlot s = gotoSeq .s2Call (emit [.processTick s.mode] s) := if_pos (by simp [hbit, hm])

/-- S2_TICK with no tick pending or no mode (R127). -/
theorem tickSlot_of_no_dispatch {s : State} (h : s.eventmask.getLsbD 0 = false ∨ s.mode = .none) :
    tickSlot s = gotoSeq .s3Blink s := if_neg (by rcases h with h | h <;> simp only [hasBit_eq, h] <;> simp)

/-- Settles O32: the two branches of S1_MODE, by its guard. -/
theorem modeSlotCommits : Obligations.ModeSlotCommits := by
  intro s rest hi hq
  have hstep : step s = .next (modeSlot config { s with inputs := rest }) :=
    step_sequencer_of_some hi (sequencerStep_of_s1Mode config hq)
  refine ⟨fun hdue => ?_, fun hnot => ?_⟩
  · rw [hstep, modeSlot_of_due _ _ ((transitionDue_iff { s with inputs := rest }).2 hdue), List.append_assoc]
    rfl
  · rw [hstep, modeSlot_of_not_due _ _ ((transitionDue_eq_false_iff { s with inputs := rest }).2 hnot)]
    rfl

/-- Settles O35: the two branches of S2_TICK, by the TICK bit and MODE. -/
theorem tickSlotDispatches : Obligations.TickSlotDispatches := by
  intro s rest hi hq
  have hstep : step s = .next (tickSlot { s with inputs := rest }) :=
    step_sequencer_of_some hi (sequencerStep_of_s2Tick config hq)
  refine ⟨fun ⟨hbit, hm⟩ => ?_, fun hnot => ?_⟩
  · rw [hstep, tickSlot_of_dispatch (s := { s with inputs := rest }) hbit hm]
    rfl
  · rw [hstep, tickSlot_of_no_dispatch (s := { s with inputs := rest }) hnot]
    rfl

/-- Settles O36: S4_POLL's events, in order. -/
theorem pollSlotEmitsHooks : Obligations.PollSlotEmitsHooks := by
  intro s rest hi hq
  rw [step_sequencer_of_some hi (sequencerStep_of_s4Poll config hq), List.append_assoc]
  rfl

/-- Settles O37: S5_CLEAR's one write. -/
theorem clearSlotEmptiesEventmask : Obligations.ClearSlotEmptiesEventmask :=
  fun _ _ hi hq => step_sequencer_of_some hi (sequencerStep_of_s5Clear config hq)

/-- Settles O38: the two branches of S6_RENDER, by DISPLAY_ACTIVE. -/
theorem renderSlotEmitsOneEvent : Obligations.RenderSlotEmitsOneEvent := by
  intro s rest hi hq
  have hstep : step s = .next (renderSlot { s with inputs := rest }) :=
    step_sequencer_of_some hi (sequencerStep_of_s6Render config hq)
  refine ⟨fun hbit => ?_, fun hbit => ?_⟩
  · simp only [hstep, renderSlot, gotoSeq, emit, hasBit_eq, hbit]; rfl
  · simp only [hstep, renderSlot, gotoSeq, emit, hasBit_eq, hbit]; rfl

end Sys2Proof.Machine
end

section
/-! SUPPORT. Waiting at the idle check (41_dispatch_sequencer.md R120, R121): outside a window a command only answers and perhaps
records a fault, so no run of commands gives a waiting Sequencer work. -/

namespace Sys2Proof.Machine

/-- Outside a window a command writes FAULT and the response trace at most (R121, R176). -/
theorem runCommand_of_not_window {w : Word} {s t : State} (h : runCommand w s = .next t) (hq : isWindow s.seq = false) :
    t = { s with fault := t.fault, resps := t.resps } := by
  rcases runCommand_cases h with ⟨code, rfl⟩ | ⟨v, rfl⟩ | ⟨hopen, -⟩
  · rfl
  · rfl
  · simp [hq] at hopen

/-- Any number of commands outside a window. -/
theorem run_commands_of_not_window {ws : List Word} {s : State} (hq : isWindow s.seq = false)
    (hi : s.inputs = ws.map .command) :
    ∃ t, core.run ws.length s = .next t ∧ t = { s with fault := t.fault, resps := t.resps, inputs := [] } := by
  induction ws generalizing s with
  | nil =>
    have hi : s.inputs = [] := hi
    exact ⟨s, rfl, by rw [← hi]⟩
  | cons w ws ih =>
    obtain ⟨u, hu⟩ := runCommand_next w { s with inputs := ws.map .command }
    have hstep : step s = .next u := (step_command hi).trans hu
    have hframe := runCommand_of_not_window hu hq
    obtain ⟨t, ht, hwait⟩ := ih (s := u) (by rw [hframe]; exact hq) (by rw [hframe])
    refine ⟨t, (run_succ_of_next hstep).trans ht, ?_⟩
    rw [hframe] at hwait
    exact hwait

/-- Settles O31: the idle check by both masks, and the wait by induction on the commands. -/
theorem idleWaitsForWork : Obligations.IdleWaitsForWork := by
  refine ⟨fun s rest hi hq hw => ?_, fun s hq he hf => ?_, fun s ws hq he hf hi => ?_⟩
  · exact step_sequencer_of_some hi (sequencerStep_of_work config { s with inputs := rest } hq hw)
  · exact (sequencerStep_eq_none config s).2 (.inl ⟨hq, he, hf⟩)
  · obtain ⟨t, ht, hwait⟩ := run_commands_of_not_window (by rw [hq]; rfl) hi
    refine ⟨t, ht, (sequencerStep_eq_none config t).2 (.inl ?_), hwait⟩
    rw [hwait]
    exact ⟨hq, he, hf⟩

end Sys2Proof.Machine
end

section
/-! SUPPORT. MODE and MODE_ADV under a step: every way a step can write them, said once (41_dispatch_sequencer.md R122, R123, R126;
70_reset_and_hazards.md R246). -/

namespace Sys2Proof.Machine

/-- The only slot that writes MODE and MODE_ADV is S1_MODE, when it commits a transition (R122, R123). -/
theorem sequencerStep_mode {c : Config} {s t : State} (h : sequencerStep c s = some t) :
    (¬(s.seq = .s1Mode ∧ transitionDue s = true) ∧ t.mode = s.mode ∧ t.modeAdv = s.modeAdv) ∨
      ((s.seq = .s1Mode ∧ transitionDue s = true) ∧ t.mode = s.modeAdv) := by
  rcases sequencerStep_cases h with ⟨hq, -, rfl⟩ | ⟨hq, rfl⟩ | ⟨hq, rfl⟩ | ⟨hq, rfl⟩ | ⟨hq, rfl⟩ | ⟨hq, rfl⟩ | ⟨hq, rfl⟩
  · exact .inl ⟨by simp [hq], rfl, rfl⟩
  · cases hd : transitionDue s with
    | true => exact .inr ⟨⟨hq, rfl⟩, by rw [modeSlot_of_due c s hd]; rfl⟩
    | false => exact .inl ⟨by simp, by rw [modeSlot_of_not_due c s hd]; exact ⟨rfl, rfl⟩⟩
  · exact .inl ⟨by simp [hq], by unfold tickSlot; split <;> exact ⟨rfl, rfl⟩⟩
  all_goals exact .inl ⟨by simp [hq], rfl, rfl⟩

/-- A command writes MODE_ADV only by a WRMA word (R171, R181). -/
theorem runCommand_modeAdv {w : Word} {s t : State} (h : runCommand w s = .next t) :
    t.modeAdv = s.modeAdv ∨ ∃ m, decode w = .ok (.wrma m) := by
  rcases runCommand_cases h with ⟨c, rfl⟩ | ⟨v, rfl⟩ |
    ⟨-, ⟨m, tag, hd, -, rfl⟩ | ⟨m, -, rfl⟩ | ⟨m, -, rfl⟩ | ⟨m, -, rfl⟩ | ⟨-, rfl⟩⟩
  · exact .inl rfl
  · exact .inl rfl
  · exact .inr ⟨m, hd⟩
  all_goals exact .inl rfl

theorem resetNext_of_sequencerNext {s : State} (h : sequencerNext s = true) : resetNext s = false := by
  rw [Bool.eq_false_iff, ne_eq, resetNext_iff]
  rintro ⟨b, rest, hi⟩
  simp [sequencerNext, hi] at h

/-- What a step does to MODE and MODE_ADV: a commit, a reset, and otherwise nothing but what a WRMA word advertises. -/
theorem step_mode_cases {s t : State} (h : step s = .next t) :
    (¬ CommitNext s ∧ t.mode = s.mode ∧
      (t.modeAdv = s.modeAdv ∨ ∃ w m, commandNext s w ∧ decode w = .ok (.wrma m))) ∨
    (CommitNext s ∧ t.mode = s.modeAdv) ∨ resetNext s = true := by
  obtain ⟨p, ⟨r, rfl⟩, ⟨hi, hn, rfl⟩ | ⟨hp, rfl⟩ | ⟨hp, rfl⟩ | ⟨w, hw, hc⟩ | ⟨hn, hs⟩ | ⟨hr, -⟩⟩ := step_inversion h
  · refine .inl ⟨fun ⟨hq, _⟩ => ?_, rfl, .inl rfl⟩
    simp [sequencerStep_of_s1Mode config hq] at hn
  · exact .inl ⟨fun ⟨_, hsn, _⟩ => not_pinNext_of_sequencer hsn _ hp, tick_mode _ config, .inl (tick_modeAdv _ config)⟩
  · exact .inl ⟨fun ⟨_, hsn, _⟩ => not_pinNext_of_sequencer hsn _ hp, btn_mode _ config, .inl (btn_modeAdv _ config)⟩
  · obtain ⟨-, -, hmode, -⟩ := runCommand_frame hc
    refine .inl ⟨fun ⟨_, hsn, _⟩ => ?_, hmode, (runCommand_modeAdv hc).imp id fun ⟨m, hd⟩ => ⟨w, m, hw, hd⟩⟩
    obtain ⟨rest, hi⟩ := hw
    simp [sequencerNext, hi] at hsn
  · rcases sequencerStep_mode hs with ⟨hno, hmode, hadv⟩ | ⟨⟨hq, hd⟩, hmode⟩
    · exact .inl ⟨fun ⟨hq, _, hdue⟩ => hno ⟨hq, (transitionDue_iff _).2 hdue⟩, hmode, .inl hadv⟩
    · exact .inr (.inl ⟨⟨hq, hn, (transitionDue_iff _).1 hd⟩, hmode⟩)
  · exact .inr (.inr hr)

/-- Settles O33: MODE is written by a commit and by reset alone, and a commit's guard excludes NONE. -/
theorem modeChangesOnlyInSlotOne : Obligations.ModeChangesOnlyInSlotOne := by
  refine ⟨fun s t h hr hne => ?_, fun s t h hq hn ha hm => ?_, fun s t h hr hs => ?_⟩
  · rcases step_mode_cases h with ⟨-, hmode, -⟩ | ⟨⟨hq, hn, ha, hm⟩, hmode⟩ | hr'
    · exact absurd hmode hne
    · exact ⟨hq, hn, ha, hm, hmode⟩
    · simp [hr] at hr'
  · rcases step_mode_cases h with ⟨hno, -⟩ | ⟨-, hmode⟩ | hr
    · exact absurd ⟨hq, hn, ha, hm⟩ hno
    · exact hmode
    · simp [resetNext_of_sequencerNext hn] at hr
  · rcases step_mode_cases h with ⟨-, hmode, -⟩ | ⟨⟨-, -, ha, -⟩, hmode⟩ | hr'
    · rwa [hmode]
    · rwa [hmode]
    · simp [hr] at hr'

/-- Settles O34: with MODE advertised again no transition is due, so only a WRMA word or a reset writes MODE_ADV. -/
theorem staleAdvertisementNeverFires : Obligations.StaleAdvertisementNeverFires := by
  refine ⟨fun s t h hr hstale _ hno => ?_, fun s rest hi hq hstale => ?_⟩
  · rcases step_mode_cases h with ⟨-, hmode, hadv | ⟨w, m, hw, hd⟩⟩ | ⟨⟨-, -, -, hm⟩, -⟩ | hr'
    · exact ⟨hmode, hadv⟩
    · obtain ⟨hword, -⟩ : FitsRow w (.wrma m) := fitsRow_of_decode hd
      exact absurd hword (hno w hw)
    · exact absurd hstale hm
    · simp [hr] at hr'
  · exact (modeSlotCommits s rest hi hq).2 (.inr hstale)

end Sys2Proof.Machine
end

section
/-! SUPPORT. The fixed order of SEQ (41_dispatch_sequencer.md R132): every way a step can write it, said once. -/

namespace Sys2Proof.Machine

/-- The arrows of R132 that touch no window: the Sequencer's own round. -/
def roundArrows : List (Seq × Seq) :=
  [(.idle, .s1Mode), (.s1Mode, .s2Tick), (.s2Tick, .s3Blink), (.s3Blink, .s4Poll), (.s4Poll, .s5Clear), (.s5Clear, .s6Render),
    (.s6Render, .idle)]

theorem not_window_of_roundArrow : ∀ a ∈ roundArrows, isWindow a.1 = false ∧ isWindow a.2 = false := by decide

theorem mem_roundArrows_of_eq {s t : State} {a b : Seq} (hs : s.seq = a) (ht : t.seq = b) (h : (a, b) ∈ roundArrows) :
    (s.seq, t.seq) ∈ roundArrows := by rwa [hs, ht]

/-- Where a Sequencer step leads: into one of the two windows under its condition (R122, R127), or along its round. -/
theorem sequencerStep_seq {c : Config} {s t : State} (h : sequencerStep c s = some t) :
    (s.seq = .s1Mode ∧ t.seq = .s1Init ∧ transitionDue s = true ∧ c.hasInit s.modeAdv = true) ∨
    (s.seq = .s2Tick ∧ t.seq = .s2Call ∧ s.eventmask.getLsbD 0 = true ∧ s.mode ≠ .none) ∨
    (s.seq, t.seq) ∈ roundArrows := by
  rcases sequencerStep_cases h with ⟨hq, -, rfl⟩ | ⟨hq, rfl⟩ | ⟨hq, rfl⟩ | ⟨hq, rfl⟩ | ⟨hq, rfl⟩ | ⟨hq, rfl⟩ | ⟨hq, rfl⟩
  · exact .inr (.inr (mem_roundArrows_of_eq hq (gotoSeq_seq _ _) (by decide)))
  · cases hd : transitionDue s with
    | false =>
      rw [modeSlot_of_not_due c s hd]
      exact .inr (.inr (mem_roundArrows_of_eq hq (gotoSeq_seq _ _) (by decide)))
    | true =>
      rw [modeSlot_of_due c s hd]
      cases hi : c.hasInit s.modeAdv with
      | true => exact .inl ⟨hq, rfl, rfl, rfl⟩
      | false => exact .inr (.inr (mem_roundArrows_of_eq (b := .s2Tick) hq rfl (by decide)))
  · by_cases hd : s.eventmask.getLsbD 0 = true ∧ s.mode ≠ .none
    · exact .inr (.inl ⟨hq, by rw [tickSlot_of_dispatch hd.1 hd.2]; rfl, hd⟩)
    · have hd : s.eventmask.getLsbD 0 = false ∨ s.mode = .none := by rwa [not_and_or, Bool.not_eq_true, not_not] at hd
      rw [tickSlot_of_no_dispatch hd]
      exact .inr (.inr (mem_roundArrows_of_eq hq (gotoSeq_seq _ _) (by decide)))
  all_goals exact .inr (.inr (mem_roundArrows_of_eq hq (gotoSeq_seq _ _) (by decide)))

/-- A command moves SEQ only where HDONE closes a window (R175, R181). -/
theorem runCommand_seq_cases {w : Word} {s t : State} (h : runCommand w s = .next t) :
    t.seq = s.seq ∨ (isWindow s.seq = true ∧ w = 0x6000#16 ∧ t.seq = afterWindow s.seq) := by
  rcases runCommand_cases h with ⟨c, rfl⟩ | ⟨v, rfl⟩ |
    ⟨hq, ⟨m, tag, -, -, rfl⟩ | ⟨m, -, rfl⟩ | ⟨m, -, rfl⟩ | ⟨m, -, rfl⟩ | ⟨hd, rfl⟩⟩
  · exact .inl rfl
  · exact .inl rfl
  · exact .inl rfl
  · exact .inl rfl
  · exact .inl rfl
  · exact .inl rfl
  · exact .inr ⟨hq, decode_eq_ok_iff.1 hd, rfl⟩

/-- Every way a step can write SEQ. -/
theorem step_seq_cases {s t : State} (h : step s = .next t) :
    (resetNext s = false ∧ t.seq = s.seq) ∨
    (resetNext s = false ∧ isWindow s.seq = true ∧ commandNext s 0x6000#16 ∧ t.seq = afterWindow s.seq) ∨
    (sequencerNext s = true ∧ ∃ r, sequencerStep config { s with inputs := r } = some t) ∨
    (∃ b, resetNext s = true ∧ t.seq = State.bootSeq config b) := by
  obtain ⟨p, ⟨r, rfl⟩, ⟨hi, -, rfl⟩ | ⟨⟨rest, hi⟩, rfl⟩ | ⟨⟨rest, hi⟩, rfl⟩ | ⟨w, ⟨rest, hi⟩, hc⟩ | ⟨hn, hs⟩ |
    ⟨hr, b, rest, -, rfl⟩⟩ := step_inversion h
  · exact .inl ⟨by simp [resetNext, hi], rfl⟩
  · exact .inl ⟨by simp [resetNext, hi], tick_seq _ config⟩
  · exact .inl ⟨by simp [resetNext, hi], btn_seq _ config⟩
  · have hr : resetNext s = false := by simp [resetNext, hi]
    rcases runCommand_seq_cases hc with hseq | ⟨hq, rfl, hseq⟩
    · exact .inl ⟨hr, hseq⟩
    · exact .inr (.inl ⟨hr, hq, ⟨rest, hi⟩, hseq⟩)
  · exact .inr (.inr (.inl ⟨hn, r, hs⟩))
  · exact .inr (.inr (.inr ⟨b, hr, rfl⟩))

/-- Settles O47: every way a step can write SEQ is one of the arrows, with its agent and its condition. -/
theorem fixedSlotOrder : Obligations.FixedSlotOrder := by
  intro s t h
  rcases step_seq_cases h with ⟨hr, hstay⟩ | ⟨hr, hopen, hword, hseq⟩ | ⟨hn, r, hs⟩ | ⟨b, hr, hseq⟩
  · exact ⟨fun hr' => by simp [hr] at hr', fun _ hne => absurd hstay hne⟩
  · refine ⟨fun hr' => by simp [hr] at hr', fun _ _ => ?_⟩
    rcases (isWindow_iff _).1 hopen with hq | hq <;> rw [hseq, hq] <;>
      exact ⟨by decide, fun _ => hword, nofun, nofun, nofun⟩
  · refine ⟨fun hr' => by simp [resetNext_of_sequencerNext hn] at hr', fun _ _ => ?_⟩
    rcases sequencerStep_seq hs with ⟨hq, ht, hdue, hinit⟩ | ⟨hq, ht, hbit, hm⟩ | hround
    · have hq : s.seq = .s1Mode := hq
      obtain ⟨ha, hm⟩ := (transitionDue_iff _).1 hdue
      rw [hq, ht]
      exact ⟨by decide, nofun, fun _ => hn, fun _ => ⟨ha, hm, hinit⟩, nofun⟩
    · have hq : s.seq = .s2Tick := hq
      rw [hq, ht]
      exact ⟨by decide, nofun, fun _ => hn, nofun, fun _ => ⟨hbit, hm⟩⟩
    · obtain ⟨hclosed, ht⟩ := not_window_of_roundArrow _ hround
      obtain ⟨hinit, hcall⟩ := (isWindow_eq_false_iff _).1 ht
      exact ⟨(show roundArrows ⊆ _ by decide) hround, fun hopen => absurd (hopen.symm.trans hclosed) nofun, fun _ => hn,
        fun hq => absurd hq hinit, fun hq => absurd hq hcall⟩
  · refine ⟨fun _ => ?_, fun hr' => by simp [hr] at hr'⟩
    rw [hseq, State.bootSeq]
    split
    · exact .inr rfl
    · exact .inl rfl

end Sys2Proof.Machine
end

section
/-! SUPPORT. Runs of the Sequencer: an event bit up to the clear (41_dispatch_sequencer.md R134), and a pass that opens no window
(R132, R136). -/

namespace Sys2Proof.Machine

/-- Settles O50: no step but S5_CLEAR and reset clears the bit, so by induction on the run. -/
theorem eventBitSurvivesUntilClear : Obligations.EventBitSurvivesUntilClear := by
  intro n
  induction n with
  | zero => intro s t b h hs _; cases h; exact hs
  | succ n ih =>
    intro s t b h hs hrun
    have halong : AlongRun (fun u => resetNext u = false ∧ ¬(u.seq = .s5Clear ∧ sequencerNext u = true)) (n + 1) s := hrun
    obtain ⟨u, hu, ht⟩ := run_succ_inversion h
    refine ih u t b ht ?_ (halong.tail hu)
    obtain ⟨hr, hclear⟩ := halong.head
    by_contra hu0
    rcases step_eventmask_clears hu hs (Bool.eq_false_iff.2 hu0) with hr' | ⟨hq, hn, -⟩
    · simp [hr] at hr'
    · exact hclear ⟨hq, hn⟩

/-- The block alone takes the Sequencer's step where there is one. -/
theorem step_alone_of_some {s t : State} (hi : s.inputs = []) (h : sequencerStep config s = some t) : step s = .next t := by
  rw [step_alone hi, runAlone, h]

/-- The latch after S3_BLINK as R155 puts it: requested, or on and not expired. -/
theorem latchAfter_eq (c : Config) (s : State) (k : Colour) :
    latchAfter c s k = (s.eventmask.getLsbD (3 + k.index) ||
      (s.led.get k && decide (tickDist s.tickcnt (s.ts.get k) ≤ c.blinkDuration.toNat))) := by
  cases hb : s.eventmask.getLsbD (3 + k.index) with
  | true => exact latchAfter_of_requested c s k hb
  | false => rw [latchAfter_of_not_requested c s k hb, Bool.false_or, expired, ← decide_not]; simp only [Nat.not_lt]

/-- A pass that opens no window, slot by slot (R132, R136). -/
theorem run_pass_without_window {s : State} (hq : s.seq = .idle) (hi : s.inputs = []) (hw : s.eventmask ≠ 0 ∨ s.flagmask ≠ 0)
    (hno : transitionDue s = false) (htick : s.eventmask.getLsbD 0 = false ∨ s.mode = .none) :
    core.run 7 s = .next (renderSlot (clearSlot (pollSlot (blinkSlot config s)))) := by
  have hs1 : sequencerStep config (gotoSeq .s1Mode s) = some (gotoSeq .s2Tick s) := by
    rw [sequencerStep_of_s1Mode config rfl]; exact congrArg some (modeSlot_of_not_due config (gotoSeq .s1Mode s) hno)
  have hs2 : sequencerStep config (gotoSeq .s2Tick s) = some (gotoSeq .s3Blink s) := by
    rw [sequencerStep_of_s2Tick config rfl]; exact congrArg some (tickSlot_of_no_dispatch (s := gotoSeq .s2Tick s) htick)
  have hs3 : sequencerStep config (gotoSeq .s3Blink s) = some (blinkSlot config s) := sequencerStep_of_s3Blink config rfl
  calc core.run 7 s
    _ = core.run 6 (gotoSeq .s1Mode s) := run_succ_of_next (step_alone_of_some hi (sequencerStep_of_work config s hq hw))
    _ = core.run 5 (gotoSeq .s2Tick s) := run_succ_of_next (step_alone_of_some hi hs1)
    _ = core.run 4 (gotoSeq .s3Blink s) := run_succ_of_next (step_alone_of_some hi hs2)
    _ = core.run 3 (blinkSlot config s) := run_succ_of_next (step_alone_of_some hi hs3)
    _ = core.run 2 (pollSlot (blinkSlot config s)) :=
      run_succ_of_next (step_alone_of_some hi (sequencerStep_of_s4Poll config rfl))
    _ = core.run 1 (clearSlot (pollSlot (blinkSlot config s))) :=
      run_succ_of_next (step_alone_of_some hi (sequencerStep_of_s5Clear config rfl))
    _ = .next (renderSlot (clearSlot (pollSlot (blinkSlot config s)))) :=
      run_succ_of_next (step_alone_of_some hi (sequencerStep_of_s6Render config rfl))

/-- Settles O48: the seven steps one by one, then what the last state holds. -/
theorem passWithoutWindowCompletes : Obligations.PassWithoutWindowCompletes := by
  intro s hq hi hw hno htick
  refine ⟨_, run_pass_without_window hq hi hw ((transitionDue_eq_false_iff s).2 hno) htick, fun k => ⟨?_, ?_⟩, ?_⟩
  · exact PerColour.get_ofFn (stampAfter s) k
  · exact (PerColour.get_ofFn (latchAfter config s) k).trans (latchAfter_eq config s k)
  · rw [hq]
    simp only [renderSlot, clearSlot, pollSlot, blinkSlot, gotoSeq, emit, hasBit_eq, List.append_assoc]
    rfl

end Sys2Proof.Machine
end

section
/-! SUPPORT. The distance of two tick values and the comparator, by the forward delta (42_blink_timer.md R150 to R154). -/

namespace Sys2Proof.Machine

/-! ### The forward delta (R150) -/

/-- The backward delta is what the forward delta leaves of the whole circle. -/
theorem fwd_comm_toNat (t s : Byte) : (fwd s t).toNat = (256 - (fwd t s).toNat) % 256 := by
  rw [fwd_toNat, fwd_toNat]
  omega

theorem fwd_eq_zero_iff (t s : Byte) : (fwd t s).toNat = 0 ↔ t = s := by
  rw [fwd_toNat, ← BitVec.toNat_inj]
  omega

/-- A forward delta is blind to a shift of both values (R151). -/
theorem fwd_add_right (t s k : Byte) : fwd (t + k) (s + k) = fwd t s := add_sub_add_right_eq_sub t s k

/-- `k` increments of a stamp are a forward delta of `k` (R151). -/
theorem fwd_add_self (s k : Byte) : fwd (s + k) s = k := add_sub_cancel_left s k

/-! ### The distance (R150, R151) -/

theorem tickDist_of_fwd_le {t s : Byte} (h : (fwd t s).toNat ≤ 128) : tickDist t s = (fwd t s).toNat := if_pos h

theorem tickDist_of_lt_fwd {t s : Byte} (h : 128 < (fwd t s).toNat) : tickDist t s = 256 - (fwd t s).toNat :=
  if_neg (Nat.not_le.2 h)

/-- The distance is the shorter way round the circle. -/
theorem tickDist_eq_min (t s : Byte) : tickDist t s = min (fwd t s).toNat (256 - (fwd t s).toNat) := by
  rcases Nat.lt_or_ge 128 (fwd t s).toNat with h | h
  · rw [tickDist_of_lt_fwd h]; omega
  · rw [tickDist_of_fwd_le h]; omega

/-- The distance is the smaller of the forward and the backward delta. -/
theorem tickDist_eq_min_fwd (t s : Byte) : tickDist t s = min (fwd t s).toNat (fwd s t).toNat := by
  rw [tickDist_eq_min, fwd_comm_toNat t s]
  omega

theorem tickDist_comm (t s : Byte) : tickDist t s = tickDist s t := by
  rw [tickDist_eq_min_fwd, tickDist_eq_min_fwd, Nat.min_comm]

theorem tickDist_le (t s : Byte) : tickDist t s ≤ 128 := by
  rw [tickDist_eq_min]
  omega

theorem tickDist_eq_zero_iff (t s : Byte) : tickDist t s = 0 ↔ t = s := by
  rw [← fwd_eq_zero_iff, tickDist_eq_min]
  omega

theorem tickDist_eq_max_iff (t s : Byte) : tickDist t s = 128 ↔ (fwd t s).toNat = 128 := by
  rw [tickDist_eq_min]
  omega

theorem tickDist_add_right (t s k : Byte) : tickDist (t + k) (s + k) = tickDist t s := by
  rw [tickDist, fwd_add_right, ← tickDist]

/-- A whole turn of the counter leaves the distance as it is (R151). -/
theorem tickDist_add_turn (n : Nat) (s : Byte) : tickDist (BitVec.ofNat 8 (n + 256)) s = tickDist (BitVec.ofNat 8 n) s := by
  have hturn : BitVec.ofNat 8 256 = 0 := rfl
  rw [BitVec.ofNat_add, hturn, add_zero]

/-- The forward delta to a stamp `k` ticks past (R151). -/
theorem fwd_past_toNat (s : Byte) {k : Nat} (hk : k ≤ 255) : (fwd (s + BitVec.ofNat 8 k) s).toNat = k := by
  rw [fwd_add_self, BitVec.toNat_ofNat]
  omega

/-- Settles O43: each law read off the distance as the minimum of the forward and the backward delta. -/
theorem distanceLaws : Obligations.DistanceLaws := by
  refine ⟨fun t s => ⟨fwd_toNat t s, tickDist_eq_min t s, tickDist_eq_min_fwd t s⟩,
    fun t s => ⟨tickDist_le t s, tickDist_eq_zero_iff t s, tickDist_eq_max_iff t s, tickDist_comm t s⟩,
    tickDist_add_right, tickDist_add_turn, fun s k => ⟨fun hk => ?_, fun hlo hhi => ?_⟩⟩
  · have hfwd := fwd_past_toNat s (k := k) (by omega)
    rw [tickDist_of_fwd_le (by omega), hfwd]
  · have hfwd := fwd_past_toNat s hhi
    rw [tickDist_of_lt_fwd (by omega), hfwd]

/-! ### The comparator (R153, R154) -/

/-- The expiry band: more than BLINK_DURATION away from the stamp both ways round. -/
theorem expired_iff_band (c : Config) (t s : Byte) :
    expired c t s = true ↔ c.blinkDuration.toNat < (fwd t s).toNat ∧ (fwd t s).toNat + c.blinkDuration.toNat < 256 := by
  rw [expired_eq_true, tickDist_eq_min]
  omega

/-- From a duration of 128 the band is empty, since no distance is greater than 128. -/
theorem expired_of_long_duration {c : Config} (t s : Byte) (h : 128 ≤ c.blinkDuration.toNat) : expired c t s = false := by
  rw [Bool.eq_false_iff, ne_eq, expired_eq_true]
  exact Nat.not_lt.2 ((tickDist_le t s).trans h)

/-- Past the band the stamp comes near again, and is not expired (R158). -/
theorem expired_of_past_band {c : Config} {t s : Byte} (h : 256 - c.blinkDuration.toNat ≤ (fwd t s).toNat) :
    expired c t s = false := by
  rw [Bool.eq_false_iff, ne_eq, expired_iff_band]
  omega

/-- Settles O44: the comparator is the expiry band, at every duration. -/
theorem expiryBand : Obligations.ExpiryBand := by
  intro c t s
  have hband := expired_iff_band c t s
  refine ⟨expired_eq_true c t s, fun hd => ?_, fun hd => ?_, expired_of_long_duration t s⟩
  · rw [hband]; omega
  · have hd : c.blinkDuration.toNat = 8 := congrArg BitVec.toNat hd
    rw [hband, hd]; omega

end Sys2Proof.Machine
end

section
/-! SUPPORT. S3_BLINK and the latches (42_blink_timer.md R155 to R158): what the slot leaves in LED and TS, colour by colour, and the
writers of LED. -/

namespace Sys2Proof.Machine

/-! ### The latch of one colour -/

@[simp] theorem blinkSlot_led_get (c : Config) (s : State) (k : Colour) : (blinkSlot c s).led.get k = latchAfter c s k :=
  PerColour.get_ofFn (latchAfter c s) k

@[simp] theorem blinkSlot_ts_get (c : Config) (s : State) (k : Colour) : (blinkSlot c s).ts.get k = stampAfter s k :=
  PerColour.get_ofFn (stampAfter s) k

/-- A requested colour is stamped with the current tick (R155). -/
theorem stampAfter_of_requested {s : State} {k : Colour} (h : s.eventmask.getLsbD (3 + k.index) = true) :
    stampAfter s k = s.tickcnt := if_pos h

/-- A colour that is not requested keeps its stamp (R155). -/
theorem stampAfter_of_not_requested {s : State} {k : Colour} (h : s.eventmask.getLsbD (3 + k.index) = false) :
    stampAfter s k = s.ts.get k := if_neg (by rw [blinkRequested_eq, h]; exact Bool.false_ne_true)

/-- A latch that goes on was requested (R156). -/
theorem requested_of_latchAfter {c : Config} {s : State} {k : Colour} (hoff : s.led.get k = false)
    (hon : latchAfter c s k = true) : s.eventmask.getLsbD (3 + k.index) = true := by
  simpa [latchAfter_eq, hoff] using hon

/-- A latch that ends the slot off was not requested (R156). -/
theorem not_requested_of_latchAfter {c : Config} {s : State} {k : Colour} (hoff : latchAfter c s k = false) :
    s.eventmask.getLsbD (3 + k.index) = false := by
  rw [latchAfter_eq, Bool.or_eq_false_iff] at hoff
  exact hoff.1

/-- Settles O41: the slot's two arrays colour by colour, and its frame. -/
theorem blinkSlotEffect : Obligations.BlinkSlotEffect := by
  intro s rest hi hq
  refine ⟨_, step_sequencer_of_some hi (sequencerStep_of_s3Blink config hq), fun k => ⟨fun hreq => ?_, fun hnot => ?_⟩, rfl⟩
  · rw [blinkSlot_led_get, blinkSlot_ts_get]
    exact ⟨latchAfter_of_requested config _ k hreq, stampAfter_of_requested hreq⟩
  · rw [blinkSlot_led_get, blinkSlot_ts_get, latchAfter_eq]
    exact ⟨by simp only [hnot, Bool.false_or], stampAfter_of_not_requested hnot⟩

/-! ### The writers of LED -/

@[simp] theorem modeSlot_led (c : Config) (s : State) : (modeSlot c s).led = s.led := by unfold modeSlot; split <;> rfl

@[simp] theorem tickSlot_led (s : State) : (tickSlot s).led = s.led := by unfold tickSlot; split <;> rfl

/-- The only slot that writes LED is S3_BLINK (R156). -/
theorem sequencerStep_led {c : Config} {s t : State} (h : sequencerStep c s = some t) :
    t.led = s.led ∨ (s.seq = .s3Blink ∧ t = blinkSlot c s) := by
  rcases sequencerStep_cases h with ⟨-, -, rfl⟩ | ⟨-, rfl⟩ | ⟨-, rfl⟩ | ⟨hq, rfl⟩ | ⟨-, rfl⟩ | ⟨-, rfl⟩ | ⟨-, rfl⟩
  · exact .inl rfl
  · exact .inl (modeSlot_led c s)
  · exact .inl (tickSlot_led s)
  · exact .inr ⟨hq, rfl⟩
  all_goals exact .inl rfl

/-- A Sequencer step that changes a latch is S3_BLINK's, with the latch of R155. -/
theorem blink_of_led_ne {c : Config} {s t : State} {k : Colour} (h : sequencerStep c s = some t)
    (hne : t.led.get k ≠ s.led.get k) : s.seq = .s3Blink ∧ t.led.get k = latchAfter c s k := by
  rcases sequencerStep_led h with hled | ⟨hq, rfl⟩
  · exact absurd (congrArg (·.get k) hled) hne
  · exact ⟨hq, blinkSlot_led_get c s k⟩

/-- No agent but the Sequencer and the reset writes LED (R156). -/
theorem step_led {s t : State} (h : step s = .next t) (hn : sequencerNext s = false) (hr : resetNext s = false) :
    t.led = s.led := by
  obtain ⟨p, ⟨r, rfl⟩, ⟨-, -, rfl⟩ | ⟨-, rfl⟩ | ⟨-, rfl⟩ | ⟨w, -, hc⟩ | ⟨hn', -⟩ | ⟨hr', -⟩⟩ := step_inversion h
  · rfl
  · exact tick_led _ config
  · exact btn_led _ config
  · obtain ⟨-, -, -, -, hled, -⟩ := runCommand_frame hc
    exact hled
  · exact absurd hn' (Bool.eq_false_iff.1 hn)
  · exact absurd hr' (Bool.eq_false_iff.1 hr)

/-- Settles O42: a changed latch is S3_BLINK's, which decides by the request and the stamp; no other agent writes LED. -/
theorem latchChangesOnlyInBlinkSlot : Obligations.LatchChangesOnlyInBlinkSlot := by
  refine ⟨fun c s t k h hoff hon => ?_, fun c s t k h hon hoff => ?_, fun s t => step_led⟩
  · obtain ⟨hq, hlatch⟩ := blink_of_led_ne (k := k) h (by rw [hoff, hon]; decide)
    exact ⟨hq, requested_of_latchAfter hoff (hlatch.symm.trans hon)⟩
  · obtain ⟨hq, hlatch⟩ := blink_of_led_ne (k := k) h (by rw [hoff, hon]; decide)
    have hlatch : latchAfter c s k = false := hlatch.symm.trans hoff
    have hnot := not_requested_of_latchAfter hlatch
    have hexp : expired c s.tickcnt (s.ts.get k) = true := by
      simpa [latchAfter_of_not_requested c s k hnot, hon] using hlatch
    exact ⟨hq, hnot, (expired_eq_true ..).1 hexp⟩

/-! ### A step of S3_BLINK with no request -/

/-- What S3_BLINK leaves of a colour that it finds without a request. -/
theorem sequencerStep_of_not_requested {c : Config} {s t : State} {k : Colour} (hq : s.seq = .s3Blink)
    (hnot : s.eventmask.getLsbD (3 + k.index) = false) (h : sequencerStep c s = some t) :
    t.led.get k = (s.led.get k && !expired c s.tickcnt (s.ts.get k)) ∧ t.ts.get k = s.ts.get k := by
  rw [sequencerStep_of_s3Blink c hq, Option.some.injEq] at h
  subst h
  rw [blinkSlot_led_get, blinkSlot_ts_get]
  exact ⟨latchAfter_of_not_requested c s k hnot, stampAfter_of_not_requested hnot⟩

/-- Settles O45: an expired stamp turns the latch off, and TICK's frame holds LED. -/
theorem autoOffAfterTimeout : Obligations.AutoOffAfterTimeout := by
  refine ⟨fun c s t k hq hnot hlate h => ?_, fun s t h => ?_⟩
  · obtain ⟨hled, -⟩ := sequencerStep_of_not_requested hq hnot h
    rw [hled, (expired_eq_true ..).2 hlate, Bool.not_true, Bool.and_false]
  · rw [exec_tick] at h
    cases h
    exact tick_led s config

/-- Settles O51: past the expiry band the stamp is not expired, so the latch stays as it was. -/
theorem starvedLatchStaysOn : Obligations.StarvedLatchStaysOn := by
  intro c s t k hq hnot hon _ hpast h
  obtain ⟨hled, hts⟩ := sequencerStep_of_not_requested hq hnot h
  exact ⟨by rw [hled, hon, expired_of_past_band hpast]; rfl, hts⟩

end Sys2Proof.Machine
end

section
/-! SUPPORT. The command port's decode procedure (43_command_port.md R176 to R179; 60_exceptions.md R203): the window gate of the
mutating commands, the port's row of each opcode, and the order of the checks. -/

namespace Sys2Proof

/-- The mutating commands (R176). -/
def Instr.IsMutating (i : Instr) : Prop :=
  i = .hdone ∨ ∃ m : BitVec 3, i = .wrma m ∨ i = .setf m ∨ i = .clrf m ∨ i = .blink m

/-- The must-be-zero bits of a command word of OP `op` (R73). -/
def portMbz (op : Nat) : Word := if op = 1 then 0x00FF#16 else if op = 6 then 0x0FFF#16 else 0x0FF8#16

/-- The command that a word of OP `op` names on the port, read from the word's fields (R72, R73). -/
def portInstr (op : Nat) (w : Word) : Instr :=
  if op = 1 then .rd (selField w)
  else if op = 2 then .wrma (valField w)
  else if op = 3 then .setf (valField w)
  else if op = 4 then .clrf (valField w)
  else if op = 5 then .blink (valField w)
  else .hdone

/-- The port's opcodes but RD's are those of the mutating commands (R170, R176). -/
theorem portInstr_isMutating {op : Nat} (w : Word) (h : op ≠ 1) : (portInstr op w).IsMutating := by
  rw [portInstr, if_neg h]
  split
  · exact .inr ⟨_, .inl rfl⟩
  split
  · exact .inr ⟨_, .inr (.inl rfl)⟩
  split
  · exact .inr ⟨_, .inr (.inr (.inl rfl))⟩
  split
  · exact .inr ⟨_, .inr (.inr (.inr rfl))⟩
  · exact .inl rfl

/-- The port's row of a command's opcode (R73, R179). -/
theorem decodePort_row {w : Word} (h : (w >>> 12).toNat ∈ [1, 2, 3, 4, 5, 6]) :
    decodePort w = checkMbz w (portMbz (w >>> 12).toNat) (portInstr (w >>> 12).toNat w) := by
  rw [shiftRight_twelve_toNat] at h ⊢
  simp only [List.mem_cons, List.not_mem_nil, or_false] at h
  have hcommand : ¬ isEventOp w = true := by rw [isEventOp_iff]; omega
  rw [decodePort, if_neg hcommand]
  rcases h with hop | hop | hop | hop | hop | hop <;> simpa [hop, portMbz, portInstr] using decode_cases w

/-- On the port, an opcode that is no command's is illegal, an input event's among them (R75, R177, R178). -/
theorem decodePort_illegalOp {w : Word} (h : (w >>> 12).toNat ∉ [1, 2, 3, 4, 5, 6]) : decodePort w = .error .illegalOp := by
  rw [shiftRight_twelve_toNat] at h
  by_cases hev : isEventOp w = true
  · rw [decodePort, if_pos hev]
  · rw [decodePort, if_neg hev, decode_eq_illegalOp_iff]
    rw [isEventOp_iff] at hev
    simp only [List.mem_cons, List.not_mem_nil, or_false] at h ⊢
    omega

end Sys2Proof

namespace Sys2Proof.Machine

/-! ### The window gate (R176) -/

section
variable {i : Instr} {s : State} {run : State → State}

/-- A gated command in a window is its rule. -/
theorem exec_of_window (hgate : exec i s = .next (whenInWindow run s)) (hq : isWindow s.seq = true) :
    exec i s = .next (run s) := by
  rw [hgate, whenInWindow_of_window run s hq]

/-- A mutating command is its rule behind the window gate. -/
theorem exec_isMutating (hmut : i.IsMutating) (s : State) : ∃ run, exec i s = .next (whenInWindow run s) := by
  rcases hmut with rfl | ⟨m, rfl | rfl | rfl | rfl⟩
  · exact ⟨_, exec_hdone s⟩
  · exact ⟨_, exec_wrma m s⟩
  · exact ⟨_, exec_setf m s⟩
  · exact ⟨_, exec_clrf m s⟩
  · exact ⟨_, exec_blink m s⟩

/-- A mutating command outside the two windows only raises WINDOW. -/
theorem exec_of_not_window (hmut : i.IsMutating) (hq : isWindow s.seq = false) : exec i s = .next (raiseFault .window s) := by
  obtain ⟨run, hgate⟩ := exec_isMutating hmut s
  rw [hgate, whenInWindow_of_not_window run s hq]

end

/-- Settles O26: the window gate, and the two answers of RD. -/
theorem mutatingCommandsNeedWindow : Obligations.MutatingCommandsNeedWindow := by
  refine ⟨fun s i hinit hcall hmut => exec_of_not_window hmut ((isWindow_eq_false_iff _).2 ⟨hinit, hcall⟩), fun s t sel h => ?_⟩
  rw [exec_rd] at h
  cases h
  rcases readCommand_cases config sel s with ⟨v, -, hread⟩ | ⟨-, hread⟩ <;> simp [hread]

/-! ### A command word, check by check (R179, R203) -/

section
variable {s : State} {w : Word} {rest : List Input}

/-- The first check: an opcode that is no command's (R177, R178). -/
theorem step_command_illegalOp (hi : s.inputs = .command w :: rest) (hop : (w >>> 12).toNat ∉ [1, 2, 3, 4, 5, 6]) :
    step s = .next (raiseFault .illegalOp { s with inputs := rest }) :=
  step_command_of_error hi (decodePort_illegalOp hop)

/-- The second check: a must-be-zero bit of a command's opcode (R76). -/
theorem step_command_rsvdBits {op : Nat} (hi : s.inputs = .command w :: rest) (hw : (w >>> 12).toNat = op)
    (hop : op ∈ [1, 2, 3, 4, 5, 6]) (hmbz : w &&& portMbz op ≠ 0) :
    step s = .next (raiseFault .rsvdBits { s with inputs := rest }) := by
  subst hw
  exact step_command_of_error hi ((decodePort_row hop).trans (checkMbz_error.2 ⟨hmbz, rfl⟩))

/-- The rule of each opcode on the word's operand. -/
theorem exec_portInstr (op : Nat) (w : Word) (s : State) :
    exec (portInstr op w) s =
      if op = 1 then exec (.rd (selField w)) s
      else if op = 2 then exec (.wrma (valField w)) s
      else if op = 3 then exec (.setf (valField w)) s
      else if op = 4 then exec (.clrf (valField w)) s
      else if op = 5 then exec (.blink (valField w)) s
      else exec .hdone s := by
  rw [portInstr]
  split_ifs <;> rfl

/-- A word that passes both checks runs the rule of its opcode. -/
theorem step_command_accepted {op : Nat} (hi : s.inputs = .command w :: rest) (hw : (w >>> 12).toNat = op)
    (hop : op ∈ [1, 2, 3, 4, 5, 6]) (hmbz : w &&& portMbz op = 0) :
    step s = exec (portInstr op w) { s with inputs := rest } := by
  subst hw
  rw [step_command hi, runCommand_ok ((decodePort_row hop).trans (checkMbz_ok.2 ⟨hmbz, rfl⟩))]

/-- Settles O6: neither a reserved opcode nor an input event's is a command's. -/
theorem portRejectsReservedAndEventOpcodes : Obligations.PortRejectsReservedAndEventOpcodes := by
  intro s w rest hi hop
  have hdisjoint : ∀ op ∈ [0x0, 0x7, 0x8, 0x9, 0xA, 0xB, 0xC, 0xD, 0xE, 0xF], op ∉ [1, 2, 3, 4, 5, 6] := by decide
  exact step_command_illegalOp hi (hdisjoint _ hop)

/-- Settles O5: the two checks of the decoder in turn, then the window gate of every opcode but RD's, then the rule. -/
theorem portFollowsDecodeProcedure : Obligations.PortFollowsDecodeProcedure := by
  refine ⟨fun s w rest hi => ?_, fun s rest hi _ => step_command_rsvdBits hi (op := 2) (by decide) (by decide) (by decide)⟩
  intro p faulted op mbz
  by_cases hop : op ∉ [1, 2, 3, 4, 5, 6]
  · rw [if_pos hop]
    exact step_command_illegalOp hi hop
  rw [if_neg hop]
  by_cases hmbz : w &&& mbz ≠ 0
  · rw [if_pos hmbz]
    exact step_command_rsvdBits hi rfl (not_not.1 hop) hmbz
  rw [if_neg hmbz, step_command_accepted hi rfl (not_not.1 hop) (not_not.1 hmbz)]
  by_cases hclosed : op ≠ 1 ∧ s.seq ≠ .s1Init ∧ s.seq ≠ .s2Call
  · rw [if_pos hclosed]
    exact exec_of_not_window (portInstr_isMutating w hclosed.1) ((isWindow_eq_false_iff _).2 hclosed.2)
  rw [if_neg hclosed]
  exact exec_portInstr op w p

end

end Sys2Proof.Machine
end

section
/-! SUPPORT. The five mutating commands one by one (43_command_port.md R171 to R175): the word, the must-be-zero bits, the effect in a
window, and WINDOW outside one. -/

namespace Sys2Proof.Machine

/-- WRMA's rule on a legal code writes the code's mode (R171). -/
theorem advertise_of_legal {m : BitVec 3} (s : State) (hm : m.toNat < 5) :
    ∃ tag, modeCode tag = m ∧ advertise m s = respond 0 { s with modeAdv := tag } := by
  obtain ⟨tag, htag, hcode⟩ := modeOfCode_of_lt m hm
  exact ⟨tag, hcode, by rw [advertise, htag]⟩

/-- WRMA's rule on a reserved code raises BAD_MODE (R171). -/
theorem advertise_of_reserved {m : BitVec 3} (s : State) (hm : 5 ≤ m.toNat) : advertise m s = raiseFault .badMode s := by
  rw [advertise, modeOfCode_of_ge m hm]

/-- Settles O21: WRMA's rule by its code. -/
theorem wrmaEffect : Obligations.WrmaEffect := by
  refine ⟨fun m => encode_toNat (.wrma m), fun s w rest hi hw hmbz => step_command_rsvdBits hi hw (by decide) hmbz,
    fun s m hq hm => ?_, fun s m hq hm => ?_, fun s m hq => exec_of_not_window (.inr ⟨m, .inl rfl⟩) hq⟩
  · obtain ⟨tag, hcode, hrule⟩ := advertise_of_legal s hm
    exact ⟨tag, hcode, by rw [exec_of_window (exec_wrma m s) hq, hrule]; rfl⟩
  · rw [exec_of_window (exec_wrma m s) hq, advertise_of_reserved s hm]
    rfl

/-- Settles O22: SETF's mask bit by bit. -/
theorem setfEffect : Obligations.SetfEffect := by
  refine ⟨fun m => encode_toNat (.setf m), fun s w rest hi hw hmbz => step_command_rsvdBits hi hw (by decide) hmbz,
    fun s m hq => ⟨_, exec_of_window (exec_setf m s) hq, fun b => ?_, rfl⟩,
    fun s m hq => exec_of_not_window (.inr ⟨m, .inr (.inl rfl)⟩) hq⟩
  simp [setFlags]

/-- Settles O23: CLRF's mask bit by bit. -/
theorem clrfEffect : Obligations.ClrfEffect := by
  refine ⟨fun m => encode_toNat (.clrf m), fun s w rest hi hw hmbz => step_command_rsvdBits hi hw (by decide) hmbz,
    fun s m hq => ⟨_, exec_of_window (exec_clrf m s) hq, fun b => ?_, rfl⟩,
    fun s m hq => exec_of_not_window (.inr ⟨m, .inr (.inr (.inl rfl))⟩) hq⟩
  simp [clearFlags]

/-- Settles O24: BLINK's mask bit by bit. -/
theorem blinkEffect : Obligations.BlinkEffect := by
  refine ⟨fun m => encode_toNat (.blink m), fun s w rest hi hw hmbz => step_command_rsvdBits hi hw (by decide) hmbz,
    fun s m hq => ⟨_, exec_of_window (exec_blink m s) hq, fun b => ?_, rfl⟩,
    fun s m hq => exec_of_not_window (.inr ⟨m, .inr (.inr (.inr rfl))⟩) hq⟩
  simp [requestBlink]

/-- HDONE in a window moves SEQ on and answers 0 (R175). -/
theorem exec_hdone_of_window {s : State} (hq : isWindow s.seq = true) :
    exec .hdone s = .next { s with seq := afterWindow s.seq, resps := s.resps ++ [.value 0] } :=
  exec_of_window (exec_hdone s) hq

/-- Settles O25: HDONE in each of the two windows, and outside them. -/
theorem hdoneEffect : Obligations.HdoneEffect := by
  refine ⟨rfl, fun s w rest hi hw hmbz => step_command_rsvdBits hi hw (by decide) hmbz, fun s hq => ?_, fun s hq => ?_,
    fun s hinit hcall => exec_of_not_window (.inl rfl) ((isWindow_eq_false_iff _).2 ⟨hinit, hcall⟩)⟩
  · rw [exec_hdone_of_window (by rw [hq]; rfl), hq]
    rfl
  · rw [exec_hdone_of_window (by rw [hq]; rfl), hq]
    rfl

end Sys2Proof.Machine
end

section
/-! SUPPORT. What no command can do (43_command_port.md R181): its frame, and the register it shares with the faults. -/

namespace Sys2Proof.Machine

/-- FAULT keeps its code, or takes the code of the raise if it had none (R201). -/
theorem raiseFault_fault_cases (code : FaultCode) (s : State) :
    (raiseFault code s).fault = s.fault ∨ (s.fault = none ∧ (raiseFault code s).fault = some code) := by
  rw [raiseFault_fault]
  cases s.fault with
  | none => exact .inr ⟨rfl, rfl⟩
  | some first => exact .inl rfl

/-- A command writes FAULT only when it held no code, with the code that the command answers (R181, R201). -/
theorem runCommand_fault {w : Word} {s t : State} (h : runCommand w s = .next t) :
    t.fault = s.fault ∨ (s.fault = none ∧ ∃ code, t.fault = some code ∧ t.resps = s.resps ++ [.fault code]) := by
  rcases runCommand_cases h with ⟨code, rfl⟩ | ⟨v, rfl⟩ |
    ⟨-, ⟨m, tag, -, -, rfl⟩ | ⟨m, -, rfl⟩ | ⟨m, -, rfl⟩ | ⟨m, -, rfl⟩ | ⟨-, rfl⟩⟩
  · exact (raiseFault_fault_cases code s).imp id fun ⟨hnone, hcode⟩ => ⟨hnone, code, hcode, raiseFault_resps s code⟩
  all_goals exact .inl rfl

/-- A command clears no bit of EVENTMASK (R181). -/
theorem runCommand_keeps_eventBit {w : Word} {s t : State} {b : Nat} (h : runCommand w s = .next t)
    (hb : s.eventmask.getLsbD b = true) : t.eventmask.getLsbD b = true := by
  rcases runCommand_eventmask h with he | ⟨-, m, -, he⟩
  · rwa [he]
  · rw [he, getLsbD_setBits, hb, Bool.true_or]

/-- Settles O29: the commands' frame, and the writers of EVENTMASK, SEQ and FAULT among them. -/
theorem commandsCannotReachOtherState : Obligations.CommandsCannotReachOtherState := by
  intro s t w rest hi h
  rw [step_command hi] at h
  obtain ⟨htick, hcount, hmode, hts, hled, hbatt, hout, -⟩ := runCommand_frame h
  refine ⟨fun b hb => runCommand_keeps_eventBit h hb, htick, hcount, hmode, hts, hled, hbatt, hout, fun hmoved => ?_, fun hwritten => ?_⟩
  · rcases runCommand_seq_cases h with hseq | ⟨-, hw, -⟩
    · exact absurd hseq hmoved
    · exact hw
  · rcases runCommand_fault h with hkept | ⟨-, hanswer⟩
    · exact absurd hkept hwritten
    · exact hanswer

end Sys2Proof.Machine
end

section
/-! SUPPORT. Faults (60_exceptions.md R201, R204, R208): the command that answers one, the writers of FAULT, and a TICK and a BTN in
either order. -/

namespace Sys2Proof.Machine

/-! ### A TICK and a BTN in either order (R208) -/

/-- BTN after TICK leaves the reload (R105). -/
theorem btn_tick_countdown (c : Config) {s : State} (h : s.seq ≠ .halt) : (btn c (tick c s)).countdown = c.displayHold :=
  btn_countdown c _ (by rwa [tick_seq])

/-- TICK after BTN counts the reload down once (R102, R105). -/
theorem tick_btn_countdown (c : Config) {s : State} (h : s.seq ≠ .halt) :
    (tick c (btn c s)).countdown = countdownTick c.displayHold := by
  rw [tick_countdown c _ (by rwa [btn_seq]), btn_countdown c s h]

/-- COUNTDOWN is the only register both producers write, so their order shows nowhere else (R208, R243). -/
theorem tick_btn_comm (c : Config) (s : State) :
    tick c (btn c s) = { btn c (tick c s) with countdown := (tick c (btn c s)).countdown } := by
  by_cases h : s.seq = .halt
  · simp only [btn_of_halt s c h, tick_of_halt s c h]
  · rw [tick_of_not_halt (btn c s) c (by rwa [btn_seq]), btn_of_not_halt (tick c s) c (by rwa [tick_seq]),
      tick_of_not_halt s c h, btn_of_not_halt s c h]

/-- Settles O17: COUNTDOWN in each order, and the rest by the two producers' commuting. -/
theorem tickButtonOrderMatters : Obligations.TickButtonOrderMatters := by
  intro s a b c d hs ha hb hc hd
  rw [exec_tick] at ha hd
  rw [exec_btn] at hb hc
  cases ha
  cases hb
  cases hc
  cases hd
  refine ⟨btn_tick_countdown config hs, ?_, tick_btn_comm config s⟩
  rw [tick_btn_countdown config hs, countdownTick_toNat]

/-! ### The command that answers a fault (R204) -/

/-- A command that answers a fault has only raised it: every other command answers a value. -/
theorem eq_raiseFault_of_resps {w : Word} {s t : State} {code : FaultCode} (h : runCommand w s = .next t)
    (hanswer : t.resps = s.resps ++ [.fault code]) : t = raiseFault code s := by
  have hvalue : ∀ v, t.resps ≠ s.resps ++ [.value v] := fun v hv => by simp [hanswer] at hv
  rcases runCommand_cases h with ⟨raised, rfl⟩ | ⟨v, rfl⟩ |
    ⟨-, ⟨m, tag, -, -, rfl⟩ | ⟨m, -, rfl⟩ | ⟨m, -, rfl⟩ | ⟨m, -, rfl⟩ | ⟨-, rfl⟩⟩
  · obtain rfl : raised = code := by simpa using hanswer
    rfl
  · exact absurd rfl (hvalue v)
  all_goals exact absurd rfl (hvalue 0)

/-- Settles O27: the answer tells which fault the command raised, and raising it is all it did. -/
theorem faultingCommandOnlyRecords : Obligations.FaultingCommandOnlyRecords := by
  intro s t w rest code hi h hanswer
  rw [step_command hi] at h
  exact eq_raiseFault_of_resps h hanswer

/-! ### The writers of FAULT (R201) -/

/-- Every way a step can write FAULT: a command that finds it empty and answers the code it leaves there, or a reset. -/
theorem step_fault_cases {s t : State} (h : step s = .next t) :
    t.fault = s.fault ∨
    (s.fault = none ∧ (∃ w, commandNext s w) ∧ ∃ code, t.fault = some code ∧ t.resps = s.resps ++ [.fault code]) ∨
    (resetNext s = true ∧ t.fault = none) := by
  obtain ⟨p, ⟨r, rfl⟩, ⟨-, -, rfl⟩ | ⟨-, rfl⟩ | ⟨-, rfl⟩ | ⟨w, hw, hc⟩ | ⟨-, hq⟩ | ⟨hr, b, rest, -, rfl⟩⟩ := step_inversion h
  · exact .inl rfl
  · exact .inl (tick_fault _ config)
  · exact .inl (btn_fault _ config)
  · exact (runCommand_fault hc).imp id fun ⟨hempty, hrecord⟩ => .inl ⟨hempty, ⟨w, hw⟩, hrecord⟩
  · obtain ⟨-, hfault, -⟩ := sequencerStep_frame hq
    exact .inl hfault
  · exact .inr (.inr ⟨hr, rfl⟩)

/-- Settles O28: among the writers of FAULT, a command needs it empty, and a reset leaves no code. -/
theorem faultStickyUntilReset : Obligations.FaultStickyUntilReset := by
  refine ⟨fun s t code h hheld hr => ?_, fun s t code h hempty hcode => ?_⟩
  · rcases step_fault_cases h with hkept | ⟨hempty, -⟩ | ⟨hreset, -⟩
    · exact hkept.trans hheld
    · simp [hheld] at hempty
    · simp [hr] at hreset
  · rcases step_fault_cases h with hkept | ⟨-, hcommand, code', hcode', hanswer⟩ | ⟨-, hcleared⟩
    · simp [hkept, hempty] at hcode
    · obtain rfl : code' = code := Option.some.inj (hcode'.symm.trans hcode)
      exact ⟨hcommand, hanswer⟩
    · simp [hcleared] at hcode

end Sys2Proof.Machine
end

section
/-! SUPPORT. Reset and boot (70_reset_and_hazards.md R230, R231, R235, R236): the state that a reset leaves, and the first pass after
it. -/

namespace Sys2Proof.Machine

/-- Settles O55: what a reset writes, and SEQ by the low-battery check. -/
theorem resetEffect : Obligations.ResetEffect := fun _ batt _ hi =>
  ⟨_, step_reset hi, rfl, rfl, rfl, rfl, rfl, rfl, rfl, rfl, rfl, rfl, rfl, (bootSeq_eq_halt_iff config batt).2,
    (bootSeq_eq_idle_iff config batt).2⟩

/-- Without the low-battery check a reset leaves the block at the idle check (R235). -/
theorem bootSeq_of_disabled {c : Config} (batt : Byte) (h : c.lowbatEnable = false) : State.bootSeq c batt = .idle :=
  (bootSeq_eq_idle_iff c batt).2 (by simp [h])

/-- From the idle check with work, two Sequencer steps commit a due advertisement and open its on-enter window (R120, R122). -/
theorem idle_commits {c : Config} {s : State} {m : ModeTag} (hq : s.seq = .idle) (hwork : s.eventmask ≠ 0)
    (hadv : s.modeAdv = m) (hnone : m ≠ .none) (hmode : m ≠ s.mode) (hinit : c.hasInit m = true) :
    ∃ a b, sequencerStep c s = some a ∧ sequencerStep c a = some b ∧ b.mode = m ∧ b.modeAdv = .none ∧
      b.flagmask.getLsbD 0 = true ∧ b.countdown = c.displayHold ∧ b.seq = .s1Init ∧
      b.out = s.out ++ [.showId c.deviceId, .beep, .onEnter m] := by
  subst hadv
  have hdue : transitionDue (gotoSeq .s1Mode s) = true := (transitionDue_iff _).2 ⟨hnone, hmode⟩
  refine ⟨_, _, sequencerStep_of_work c s hq (.inl hwork), sequencerStep_of_s1Mode c rfl, ?_⟩
  rw [modeSlot_of_due c _ hdue, gotoSeq_modeAdv, hinit]
  exact ⟨rfl, rfl, by simp [flDisplayActive], rfl, rfl, rfl⟩

/-- Settles O57: the TICK gives the idle check work, and the boot advertisement is due because MODE is NONE. -/
theorem bootScenario : Obligations.BootScenario := by
  intro c batt o rs ms hadv hinit hlow
  have hidle : (State.afterReset c batt o rs ms).seq = .idle := bootSeq_of_disabled batt hlow
  obtain ⟨a, b, ha, hb, hmode, hmodeAdv, hflag, hcount, hseq, hout⟩ :=
    idle_commits (c := c) (s := tick c (State.afterReset c batt o rs ms)) (m := .gameA) ((tick_seq _ c).trans hidle)
      (tick_eventmask_ne_zero c _ (by rw [hidle]; nofun)) ((tick_modeAdv _ c).trans hadv) nofun
      (by rw [tick_mode]; nofun) hinit
  exact ⟨a, b, ha, hb, hmode, hmodeAdv, hflag, hcount, hseq, hout.trans (by rw [tick_out]; rfl)⟩

end Sys2Proof.Machine
end

section
/-! SUPPORT. Windows that stay open and windows that never open (70_reset_and_hazards.md R245, R247). -/

namespace Sys2Proof.Machine

/-- A step of an agent that is neither the Sequencer nor the reset, and no HDONE: all that happens in a window whose Handler hangs
(R247). -/
def LeavesWindowOpen (m : Input) : Prop := (∃ p, m = .pin p) ∨ ∃ w, m = .command w ∧ w ≠ 0x6000#16

/-- Such a step is enabled, and it is not the Sequencer's, the reset's or an HDONE. -/
theorem LeavesWindowOpen.next {s : State} {m : Input} {rest : List Input} (hm : LeavesWindowOpen m)
    (hi : s.inputs = m :: rest) :
    (∃ u, step s = .next u) ∧ sequencerNext s = false ∧ resetNext s = false ∧ ¬ commandNext s 0x6000#16 := by
  rcases hm with ⟨p, rfl⟩ | ⟨w, rfl, hw⟩
  · exact ⟨step_next_of_ne_sequencer hi nofun, by simp [sequencerNext, hi], by simp [resetNext, hi],
      by simp [commandNext, hi]⟩
  · exact ⟨step_next_of_ne_sequencer hi nofun, by simp [sequencerNext, hi], by simp [resetNext, hi],
      by simp [commandNext, hi, hw]⟩

/-- A step that is neither a reset nor S5_CLEAR's clears no event bit (R25). -/
theorem step_keeps_eventBit {s t : State} {b : Nat} (h : step s = .next t) (hr : resetNext s = false)
    (hclear : s.seq = .s5Clear → sequencerNext s = false) (hb : s.eventmask.getLsbD b = true) :
    t.eventmask.getLsbD b = true := by
  by_contra hlost
  rcases step_eventmask_clears h hb (Bool.eq_false_iff.2 hlost) with hreset | ⟨hq, hn, -⟩
  · simp [hr] at hreset
  · simp [hclear hq] at hn

/-- The pass has not moved on from `s` to `t`: SEQ and the latches are the same, and no event bit is lost (R247). -/
def HeldSince (s t : State) : Prop :=
  t.seq = s.seq ∧ t.led = s.led ∧ ∀ b : Nat, s.eventmask.getLsbD b = true → t.eventmask.getLsbD b = true

/-- One step in a window whose Handler hangs. -/
theorem step_holds_window {s : State} {m : Input} {rest : List Input} (hq : isWindow s.seq = true) (hm : LeavesWindowOpen m)
    (hi : s.inputs = m :: rest) : ∃ u, step s = .next u ∧ HeldSince s u := by
  obtain ⟨⟨u, hu⟩, hn, hr, hw⟩ := hm.next hi
  refine ⟨u, hu, ?_, step_led hu hn hr, fun b => step_keeps_eventBit hu hr fun _ => hn⟩
  by_contra hmoved
  obtain ⟨-, hleft, -⟩ := (fixedSlotOrder s u hu).2 hr hmoved
  exact hw (hleft hq)

/-- Settles O46: step by step, and the Sequencer has no step in a window. -/
theorem handlerHangHoldsWindow : Obligations.HandlerHangHoldsWindow := by
  intro ms
  induction ms with
  | nil =>
    intro s hq _ _
    refine ⟨s, rfl, rfl, rfl, (sequencerStep_eq_none config s).2 (.inr ?_), fun _ hb => hb⟩
    exact ((isWindow_iff _).1 hq).imp id .inl
  | cons m ms ih =>
    intro s hq hi hall
    obtain ⟨u, hu, hseq, hled, hbits⟩ := step_holds_window hq (hall m List.mem_cons_self) hi
    obtain ⟨t, ht, htseq, htled, hnone, htbits⟩ :=
      ih u (by rw [hseq, hq]) (by rw [step_inputs hu, hi]; rfl) fun i hmem => hall i (List.mem_cons_of_mem m hmem)
    exact ⟨t, (run_succ_of_next hu).trans ht, htseq.trans hseq, htled.trans hled, hnone, fun b hb => htbits b (hbits b hb)⟩

/-- A Sequencer step with no mode and none advertised commits nothing and dispatches to nobody (R122, R127). -/
theorem sequencerStep_without_mode {c : Config} {s t : State} (h : sequencerStep c s = some t) (hmode : s.mode = .none)
    (hadv : s.modeAdv = .none) : t.mode = .none ∧ t.modeAdv = .none ∧ isWindow t.seq = false := by
  have hnot : ¬ transitionDue s = true := by simp [(transitionDue_eq_false_iff s).2 (.inl hadv)]
  have hseq : isWindow t.seq = false := by
    rcases sequencerStep_seq h with ⟨-, -, hdue, -⟩ | ⟨-, -, -, hm⟩ | hround
    · exact absurd hdue hnot
    · exact absurd hmode hm
    · exact (not_window_of_roundArrow _ hround).2
  rcases sequencerStep_mode h with ⟨-, hmode', hadv'⟩ | ⟨⟨-, hdue⟩, -⟩
  · exact ⟨hmode'.trans hmode, hadv'.trans hadv, hseq⟩
  · exact absurd hdue hnot

/-- Outside a window, with no mode and none advertised, no step but a reset changes that (R171, R245). -/
theorem step_without_mode {s t : State} (h : step s = .next t) (hr : resetNext s = false) (hmode : s.mode = .none)
    (hadv : s.modeAdv = .none) (hq : isWindow s.seq = false) :
    t.mode = .none ∧ t.modeAdv = .none ∧ isWindow t.seq = false := by
  obtain ⟨p, ⟨r, rfl⟩, ⟨-, -, rfl⟩ | ⟨-, rfl⟩ | ⟨-, rfl⟩ | ⟨w, -, hc⟩ | ⟨-, hs⟩ | ⟨hreset, -⟩⟩ := step_inversion h
  · exact ⟨hmode, hadv, hq⟩
  · rw [tick_mode, tick_modeAdv, tick_seq]
    exact ⟨hmode, hadv, hq⟩
  · rw [btn_mode, btn_modeAdv, btn_seq]
    exact ⟨hmode, hadv, hq⟩
  · rw [runCommand_of_not_window hc hq]
    exact ⟨hmode, hadv, hq⟩
  · exact sequencerStep_without_mode hs hmode hadv
  · simp [hr] at hreset

/-- Outside a window no step but a reset clears a flag (R28). -/
theorem step_keeps_flagBit {s t : State} {b : Nat} (h : step s = .next t) (hr : resetNext s = false)
    (hq : isWindow s.seq = false) (hb : s.flagmask.getLsbD b = true) : t.flagmask.getLsbD b = true := by
  by_contra hlost
  rcases step_flagmask_clears h hb (Bool.eq_false_iff.2 hlost) with hreset | ⟨hopen, -⟩
  · simp [hr] at hreset
  · simp [hq] at hopen

/-- Settles O52: the step keeps MODE, MODE_ADV and the closed window, and a closed window keeps the flags. -/
theorem noWindowOpensWithoutMode : Obligations.NoWindowOpensWithoutMode := by
  intro s t hmode hadv hq h hr
  obtain ⟨hmode', hadv', hq'⟩ := step_without_mode h hr hmode hadv hq
  exact ⟨hmode', hadv', hq', fun b => step_keeps_flagBit h hr hq⟩

end Sys2Proof.Machine
end

section
/-! SUPPORT. A TICK that comes after S2_TICK (70_reset_and_hazards.md R240, R241): the Sequencer's steps from a slot after S2_TICK
to S6_RENDER. -/

namespace Sys2Proof.Machine

/-- The slots in which a TICK comes too late for its pass (R240), each with its number of Sequencer steps to S6_RENDER. -/
def lateSlots : List (Seq × Nat) := [(.s3Blink, 3), (.s4Poll, 2), (.s5Clear, 1)]

/-- The next `n` steps lead to S6_RENDER with EVENTMASK empty, leave the tick counter alone, and append `evs` to OUT. -/
def ClearsAfter (n : Nat) (s : State) (evs : List OutEvent) : Prop :=
  ∃ t : State, core.run n s = .next t ∧ t.seq = .s6Render ∧ t.eventmask = 0 ∧ t.tickcnt = s.tickcnt ∧ t.out = s.out ++ evs

/-- One more Sequencer step before. -/
theorem ClearsAfter.of_step {n : Nat} {s u : State} {es evs : List OutEvent} {rest : List Input}
    (hi : s.inputs = .sequencer :: rest) (hu : sequencerStep config { s with inputs := rest } = some u)
    (hout : u.out = s.out ++ es) (h : ClearsAfter n u evs) : ClearsAfter (n + 1) s (es ++ evs) := by
  obtain ⟨t, ht, hseq, hmask, htick, htout⟩ := h
  obtain ⟨htick', -⟩ := sequencerStep_frame hu
  exact ⟨t, (run_succ_of_next (step_sequencer_of_some hi hu)).trans ht, hseq, hmask, htick.trans htick',
    by rw [htout, hout, List.append_assoc]⟩

section
variable {s : State} {rest : List Input}

/-- S5_CLEAR drops every event and emits nothing (R130). -/
theorem clearsAfter_of_s5Clear (hq : s.seq = .s5Clear) (hi : s.inputs = .sequencer :: rest) : ClearsAfter 1 s [] :=
  ⟨_, run_succ_of_next (step_sequencer_of_some hi (sequencerStep_of_s5Clear config hq)), rfl, rfl, rfl,
    (List.append_nil _).symm⟩

/-- S4_POLL emits poll events alone before that (R129). -/
theorem clearsAfter_of_s4Poll (hq : s.seq = .s4Poll) (hi : s.inputs = .sequencer :: .sequencer :: rest) :
    ∃ evs, ClearsAfter 2 s evs ∧ ∀ m, OutEvent.processTick m ∉ evs := by
  refine ⟨_, .of_step hi (sequencerStep_of_s4Poll config hq) rfl (clearsAfter_of_s5Clear rfl rfl), fun m => ?_⟩
  split <;> split <;> simp

/-- S3_BLINK emits indicator events alone before that (R155). -/
theorem clearsAfter_of_s3Blink (hq : s.seq = .s3Blink) (hi : s.inputs = .sequencer :: .sequencer :: .sequencer :: rest) :
    ∃ evs, ClearsAfter 3 s evs ∧ ∀ m, OutEvent.processTick m ∉ evs := by
  obtain ⟨evs, hevs, hnone⟩ :=
    clearsAfter_of_s4Poll (s := blinkSlot config { s with inputs := .sequencer :: .sequencer :: rest }) rfl rfl
  exact ⟨_, .of_step hi (sequencerStep_of_s3Blink config hq) rfl hevs, fun m => by simp [hnone m]⟩

/-- From each slot between S2_TICK and S6_RENDER. -/
theorem clearsAfter_of_mem_lateSlots {n : Nat} (hqn : (s.seq, n) ∈ lateSlots)
    (hi : s.inputs = List.replicate n .sequencer ++ rest) :
    ∃ evs, ClearsAfter n s evs ∧ (∀ m, OutEvent.processTick m ∉ evs) ∧ (s.seq = .s5Clear → evs = []) := by
  simp only [lateSlots, List.mem_cons, List.not_mem_nil, or_false, Prod.mk.injEq] at hqn
  rcases hqn with ⟨hq, rfl⟩ | ⟨hq, rfl⟩ | ⟨hq, rfl⟩
  · obtain ⟨evs, hevs, hnone⟩ := clearsAfter_of_s3Blink hq hi
    exact ⟨evs, hevs, hnone, fun hclear => by simp [hq] at hclear⟩
  · obtain ⟨evs, hevs, hnone⟩ := clearsAfter_of_s4Poll hq hi
    exact ⟨evs, hevs, hnone, fun hclear => by simp [hq] at hclear⟩
  · exact ⟨[], clearsAfter_of_s5Clear hq hi, fun _ => List.not_mem_nil, fun _ => rfl⟩

end

theorem ne_halt_of_mem_lateSlots {q : Seq} {n : Nat} (h : (q, n) ∈ lateSlots) : q ≠ .halt := by
  rintro rfl
  simp [lateSlots] at h

/-- Settles O49: the TICK counts and stays in its slot, and S5_CLEAR comes before the next S2_TICK. -/
theorem lateTickEventIsLost : Obligations.LateTickEventIsLost := by
  intro s n rest hqn hi
  obtain ⟨evs, ⟨t, ht, hseq, hmask, htick, hout⟩, hnone, hclear⟩ :=
    clearsAfter_of_mem_lateSlots (s := tick config { s with inputs := List.replicate n .sequencer ++ rest }) (n := n) (rest := rest)
      (by rwa [tick_seq]) (tick_inputs _ config)
  exact ⟨t, evs, (run_succ_of_next (step_tick hi)).trans ht, hseq, hmask,
    htick.trans (tick_tickcnt config { s with inputs := List.replicate n .sequencer ++ rest } (ne_halt_of_mem_lateSlots hqn)),
    hout.trans (by rw [tick_out]), hnone, fun hq => hclear ((tick_seq _ config).trans hq)⟩

end Sys2Proof.Machine
end

section
/-! SUPPORT. Progress under the assumptions of 70_reset_and_hazards.md R251: each slot is left, and every arrow of
41_dispatch_sequencer.md R132 leads nearer to each slot that is no window. -/

namespace Sys2Proof.Machine

/-! ### The round of the slots (R132) -/

/-- The arrows of R132. -/
def slotArrows : List (Seq × Seq) :=
  [(.idle, .s1Mode), (.s1Mode, .s1Init), (.s1Mode, .s2Tick), (.s1Init, .s2Tick), (.s2Tick, .s2Call), (.s2Tick, .s3Blink),
    (.s2Call, .s3Blink), (.s3Blink, .s4Poll), (.s4Poll, .s5Clear), (.s5Clear, .s6Render), (.s6Render, .idle)]

/-- The slots that every pass comes to. -/
def passSlots : List Seq := [.idle, .s1Mode, .s2Tick, .s3Blink, .s4Poll, .s5Clear, .s6Render]

/-- How far `q` is ahead of `a` on the round of the nine states, in the order of their codes (R36). -/
def slotsAhead (q a : Seq) : Nat := ((seqCode q).toNat + 9 - (seqCode a).toNat) % 9

/-- An arrow may skip a window, and skips no other slot: it leads nearer to a slot it does not leave. -/
theorem slotsAhead_lt_of_arrow :
    ∀ q ∈ passSlots, ∀ a ∈ slotArrows, a.1 ≠ q → slotsAhead q a.2 < slotsAhead q a.1 := by decide

/-- Where the Sequencer surely has its step (R11). -/
theorem sequencerStep_isSome {c : Config} {s : State} (hwindow : isWindow s.seq = false) (hhalt : s.seq ≠ .halt)
    (hwork : s.seq = .idle → s.eventmask ≠ 0) : (sequencerStep c s).isSome = true := by
  obtain ⟨hinit, hcall⟩ := (isWindow_eq_false_iff _).1 hwindow
  rw [Option.isSome_iff_ne_none, ne_eq, sequencerStep_eq_none]
  rintro (⟨hq, he, -⟩ | hq | hq | hq)
  · exact hwork hq he
  · exact hinit hq
  · exact hcall hq
  · exact hhalt hq

/-- A scheduled Sequencer step moves SEQ. -/
theorem step_sequencer_seq_ne {s t : State} {rest : List Input} (h : step s = .next t) (hi : s.inputs = .sequencer :: rest) :
    t.seq ≠ s.seq := by
  rw [step_sequencer hi] at h
  unfold takeSequencerStep at h
  split at h
  next u hu =>
    cases h
    rcases sequencerStep_seq hu with ⟨hq, ht, -⟩ | ⟨hq, ht, -⟩ | hround
    · exact fun heq => by cases hq.symm.trans (heq.symm.trans ht)
    · exact fun heq => by cases hq.symm.trans (heq.symm.trans ht)
    · exact (show ∀ a ∈ roundArrows, a.2 ≠ a.1 by decide) _ hround
  next => cases h

/-- An HDONE in a window moves SEQ (R175). -/
theorem step_hdone_seq_ne {s t : State} {rest : List Input} (h : step s = .next t)
    (hi : s.inputs = .command 0x6000#16 :: rest) (hq : isWindow s.seq = true) : t.seq ≠ s.seq := by
  rw [step_command hi, runCommand_ok (i := .hdone) rfl, exec_hdone_of_window (s := { s with inputs := rest }) hq] at h
  cases h
  intro heq
  have hclosed := isWindow_afterWindow_of_window hq
  rw [show afterWindow s.seq = s.seq from heq, hq] at hclosed
  cases hclosed

/-- A TICK outside HALT leaves its bit (R100). -/
theorem step_tick_eventBit {s t : State} {rest : List Input} (h : step s = .next t) (hi : s.inputs = .pin .tick :: rest)
    (hs : s.seq ≠ .halt) : t.eventmask.getLsbD 0 = true := by
  rw [step_tick hi, tick_with_inputs] at h
  cases h
  simp [tick_eventmask config s hs, getLsbD_tickBits]

/-! ### A live run -/

/-- A run without a reset, from a state that is not halted, that meets the progress assumptions of R251. -/
structure LiveRun (schedule : Nat → Input) (x : Nat → State) : Prop where
  run : IsRun schedule x
  fair : Fair schedule x
  noReset : ∀ n b, schedule n ≠ .reset b
  started : (x 0).seq ≠ .halt

section
variable {schedule : Nat → Input} {x : Nat → State} (hx : LiveRun schedule x)
include hx

theorem LiveRun.resetNext_eq_false (n : Nat) : resetNext { x n with inputs := [schedule n] } = false := by
  rw [Bool.eq_false_iff, ne_eq, resetNext_iff]
  rintro ⟨b, rest, hi⟩
  exact hx.noReset n b (List.cons.inj hi).1

/-- The run stays out of HALT (R107, R135). -/
theorem LiveRun.ne_halt (n : Nat) : (x n).seq ≠ .halt := by
  induction n with
  | zero => exact hx.started
  | succ n ih => exact fun hq => ih ((step_halt_iff (hx.run n) (hx.resetNext_eq_false n)).1 hq)

/-- SEQ moves along an arrow (R132). -/
theorem LiveRun.arrow {n : Nat} (h : (x (n + 1)).seq ≠ (x n).seq) : ((x n).seq, (x (n + 1)).seq) ∈ slotArrows :=
  ((fixedSlotOrder _ _ (hx.run n)).2 (hx.resetNext_eq_false n) h).1

/-- Away from S5_CLEAR an event bit stays (R25). -/
theorem LiveRun.eventBit_succ {n b : Nat} (hq : (x n).seq ≠ .s5Clear) (hb : (x n).eventmask.getLsbD b = true) :
    (x (n + 1)).eventmask.getLsbD b = true :=
  step_keeps_eventBit (hx.run n) (hx.resetNext_eq_false n) (fun hclear => absurd hclear hq) hb

/-- A block that stays at the idle check has work from some point on: the next TICK's bit, which nothing clears there. -/
theorem LiveRun.work_at_idle {n : Nat} (hidle : ∀ m, n ≤ m → (x m).seq = .idle) :
    ∃ k, n ≤ k ∧ ∀ m, k ≤ m → (x m).eventmask ≠ 0 := by
  obtain ⟨k, hk, htick⟩ := hx.fair.ticks n
  have hbit : ∀ m, k + 1 ≤ m → (x m).eventmask.getLsbD 0 = true := by
    intro m hm
    induction m, hm using Nat.le_induction with
    | base => exact step_tick_eventBit (hx.run k) (congrArg ([·]) htick) (hx.ne_halt k)
    | succ m hm ih => exact hx.eventBit_succ (by rw [hidle m (by omega)]; nofun) ih
  refine ⟨k + 1, by omega, fun m hm h0 => ?_⟩
  simpa [h0] using hbit m hm

/-- No state of the Sequencer is kept for ever: a window gets its HDONE, and outside the windows the Sequencer stays enabled, at the
idle check from the next TICK on. -/
theorem LiveRun.leaves (n : Nat) : ∃ m, n ≤ m ∧ (x m).seq ≠ (x n).seq := by
  by_contra! hstay
  cases hq : isWindow (x n).seq with
  | true =>
    obtain ⟨m, hm, hdone⟩ := hx.fair.handler n hq
    have hmoved := step_hdone_seq_ne (hx.run m) (congrArg ([·]) hdone) ((congrArg isWindow (hstay m hm)).trans hq)
    exact hmoved ((hstay (m + 1) (by omega)).trans (hstay m hm).symm)
  | false =>
    obtain ⟨k, hk, hwork⟩ : ∃ k, n ≤ k ∧ ∀ m, k ≤ m → (x m).seq = .idle → (x m).eventmask ≠ 0 := by
      by_cases hidle : (x n).seq = .idle
      · obtain ⟨k, hk, hwork⟩ := hx.work_at_idle fun m hm => (hstay m hm).trans hidle
        exact ⟨k, hk, fun m hm _ => hwork m hm⟩
      · exact ⟨n, le_rfl, fun m hm hm' => absurd ((hstay m hm).symm.trans hm') hidle⟩
    have henabled : ∀ m, k ≤ m → (sequencerStep config (x m)).isSome = true := fun m hm =>
      sequencerStep_isSome (by rw [hstay m (by omega), hq]) (hx.ne_halt m) (hwork m hm)
    obtain ⟨m, hm, hseq⟩ := hx.fair.sequencer k henabled
    have hmoved := step_sequencer_seq_ne (hx.run m) (congrArg ([·]) hseq)
    exact hmoved ((hstay (m + 1) (by omega)).trans (hstay m (by omega)).symm)

/-- From every state SEQ next moves along an arrow. -/
theorem LiveRun.next_arrow (n : Nat) : ∃ m, n ≤ m ∧ ((x n).seq, (x (m + 1)).seq) ∈ slotArrows := by
  by_contra! hnone
  have hstay : ∀ m, n ≤ m → (x m).seq = (x n).seq := by
    intro m hm
    induction m, hm using Nat.le_induction with
    | base => rfl
    | succ m hm ih =>
      by_contra hmoved
      exact hnone m hm (ih ▸ hx.arrow (by rwa [ih]))
  obtain ⟨m, hm, hmoved⟩ := hx.leaves n
  exact hmoved (hstay m hm)

/-- Each slot of the pass is reached, since every arrow leads nearer to it. -/
theorem LiveRun.reaches {q : Seq} (hq : q ∈ passSlots) (n : Nat) : ∃ m, n ≤ m ∧ (x m).seq = q := by
  induction hd : slotsAhead q (x n).seq using Nat.strong_induction_on generalizing n with
  | _ d ih =>
    by_cases hn : (x n).seq = q
    · exact ⟨n, le_rfl, hn⟩
    · obtain ⟨m, hm, harrow⟩ := hx.next_arrow n
      obtain ⟨k, hk, hreach⟩ := ih _ (hd ▸ slotsAhead_lt_of_arrow q hq _ harrow hn) (m + 1) rfl
      exact ⟨k, by omega, hreach⟩

end

/-- Settles O54: its premises make the run a live one, which comes to each slot of the pass from every point. -/
theorem fairRunsReachEverySlot : Obligations.FairRunsReachEverySlot :=
  fun _ _ hrun hfair hreset hstart _ hq n => LiveRun.reaches ⟨hrun, hfair, hreset, hstart⟩ hq n

end Sys2Proof.Machine
end
